-- ==== Sys2Proof/Word.lean ====
section
/-! DEFINITION. The byte, and total access to tables of fixed length. -/

namespace Sys2Proof

/-- A byte of a frame, packet or record (R193). -/
abbrev Byte := BitVec 8

/-- The entry of a table at an index within its length. -/
def vget {α : Type} {n : Nat} (v : Vector α n) (i : Fin n) : α := v[i]

/-- The table with one entry replaced. -/
def vset {α : Type} {n : Nat} (v : Vector α n) (i : Fin n) (x : α) : Vector α n := v.set i x

end Sys2Proof
end

