-- ==== Sys2Proof/Syntax.lean ====
section
/-! DEFINITION. The commands of the engine: one constructor of `Instr` per row of the table of operations and events.
Parameters of records are kept as the record's bytes give them; undefined codes are refused by the meanings (R193, R197). -/

namespace Sys2Proof

/-- A valid seat: trunk 0-3 and position index 0-119, which stands for position 1-120 (R1, 00_scope 4.2). -/
structure Seat where
  trunk : Fin 4
  pos : Fin 120
  deriving DecidableEq, Repr

/-- The result of an acknowledgement (R34, R194). -/
inductive AckResult where
  | done
  | rejected
  deriving DecidableEq, Repr

/-- Parameters of LOAD_SEAT (R18, R197); a field left out by the presence mask is `none`.
The override field is its code (0 value, 1 clear) and its value. -/
structure LoadSeatParams where
  first : BitVec 16
  last : BitVec 16
  enabled : Option Byte
  cls : Option Byte
  trim : Option Byte
  override : Option (Byte × BitVec 16)
  deriving DecidableEq, Repr

/-- Parameters of SET_CLASS (R11, R197). -/
structure SetClassParams where
  cls : Byte
  kind : Option Byte
  level : Option Byte
  group : Option Byte
  allowance : Option (BitVec 16)
  action : Option Byte
  offset : Option Byte
  silenceRelease : Option Byte
  replaceable : Option Byte
  deriving DecidableEq, Repr

/-- Parameters of SET_ZONE (R16, R197). -/
structure SetZoneParams where
  zone : Byte
  enabled : Option Byte
  base : Option (BitVec 16)
  limit : Option (BitVec 16)
  cap : Option Byte
  deriving DecidableEq, Repr

/-- Parameters of SET_FLOOR: any subset of the 20 settings, in the order of the table of R180 (R197). -/
structure SetFloorParams where
  mode : Option Byte
  floorLimit : Option Byte
  chairReserve : Option Byte
  policy : Option Byte
  discipline : Option Byte
  confirm : Option Byte
  confirmWindow : Option (BitVec 16)
  pressAsConfirm : Option Byte
  secondPressCancels : Option Byte
  priorityAction : Option Byte
  nomAttenuation : Option Byte
  levelMonitor : Option Byte
  windowExponent : Option Byte
  gateThreshold : Option (BitVec 16)
  releaseThreshold : Option (BitVec 16)
  silenceCountSetting : Option Byte
  warnLead : Option (BitVec 16)
  retryLimit : Option Byte
  silenceLimit : Option Byte
  autoCensus : Option Byte
  deriving DecidableEq, Repr

/-- The commands, one per row of the table. A received frame is given as its bytes (R194, R195); a seat event by trunk,
position field, serial and argument (R194); a completion by the seat the acknowledgement names and its result (R35). -/
inductive Instr where
  | powerOnReset
  | brownoutReset
  | pinReset
  | startUpHoldEnd
  | hallFrameValid (frame : List Byte)
  | hallFrameInvalid (frame : List Byte)
  | hallFrameMissing
  | hallLinkUp (frame : List Byte)
  | hallLinkLost
  | hallAlignFail
  | hallFrameSend
  | mixComputation
  | decisecondExpiry
  | secondExpiry
  | speakWarning (c : Fin 12)
  | speakExpiry (c : Fin 12)
  | offerLapse (seat : Seat)
  | silenceTimerExpiry
  | trunkFrameGood (t : Fin 4) (frame : List Byte)
  | trunkFrameMalformed (t : Fin 4) (frame : List Byte)
  | trunkFrameMissing (t : Fin 4)
  | trunkUp (t : Fin 4) (frame : List Byte)
  | trunkTrainingFail (t : Fin 4)
  | trunkLinkLost (t : Fin 4)
  | trunkFrameSend (t : Fin 4)
  | hello (t : Fin 4) (position : Fin 128) (serial : Fin 16) (arg : Byte)
  | micPress (t : Fin 4) (position : Fin 128) (serial : Fin 16) (arg : Byte)
  | confirm (t : Fin 4) (position : Fin 128) (serial : Fin 16) (arg : Byte)
  | priorityDown (t : Fin 4) (position : Fin 128) (serial : Fin 16) (arg : Byte)
  | priorityUp (t : Fin 4) (position : Fin 128) (serial : Fin 16) (arg : Byte)
  | chairNext (t : Fin 4) (position : Fin 128) (serial : Fin 16) (arg : Byte)
  | chairClear (t : Fin 4) (position : Fin 128) (serial : Fin 16) (arg : Byte)
  | takeList (t : Fin 4) (position : Fin 128) (serial : Fin 16) (arg : Byte)
  | giveList (t : Fin 4) (position : Fin 128) (serial : Fin 16) (arg : Byte)
  | openComplete (seat : Seat) (result : AckResult)
  | muteComplete (seat : Seat) (result : AckResult)
  | unmuteComplete (seat : Seat) (result : AckResult)
  | closeComplete (seat : Seat) (result : AckResult)
  | offerComplete (seat : Seat) (result : AckResult)
  | indicationComplete (seat : Seat) (result : AckResult)
  | probeAnswered (seat : Seat) (result : AckResult) (data : Byte)
  | commandAttemptFailed (t : Fin 4)
  | levelWindowComplete (c : Fin 12) (slot : Option (BitVec 16))
  | silenceRelease (c : Fin 12)
  | unknownRecord (kind : Byte)
  | loadSeat (p : LoadSeatParams)
  | readSeat (code : BitVec 16)
  | setClass (p : SetClassParams)
  | readClass (cls : Byte)
  | setZone (p : SetZoneParams)
  | readZone (zone : Byte)
  | census (trunk : Byte)
  | abortCensus (trunk : Byte)
  | holdTrunk (trunk : Byte)
  | releaseTrunk (trunk : Byte)
  | readTrunk (trunk : Byte)
  | close (code : BitVec 16)
  | closeAll
  | readChannels
  | insertRequest (code : BitVec 16) (index : Byte)
  | cancelRequest (code : BitVec 16)
  | clearList
  | readList (first : Byte) (count : Byte)
  | next
  | grant (code : BitVec 16)
  | claimList
  | yieldList
  | forceList (field : Byte)
  | readMix
  | batch (n : Byte)
  | setNotices (enables : Vector Byte 14)
  | setFloor (p : SetFloorParams)
  | readSettings
  | openSitting
  | closeSitting
  | readStatus
  | clearStatus (mask : BitVec 16)
  | setReport (enables : Vector Byte 14)
  | resetEngine
  | readIdent
  | withdrawComplete (seat : Seat) (result : AckResult)
  deriving DecidableEq, Repr

end Sys2Proof
end

