-- ==== Sys2Proof/Decode.lean ====
section
/-! DEFINITION. Reading a control record into a command, and laying a record command out as bytes (R193, R196, R197, table 11.5).
The opcode table gives bits for no row, so `decodeTableWord` reads none. -/

namespace Sys2Proof

/-- No row of the table gives bits: a word spells no command. -/
def decodeTableWord (_nbits _w : Nat) : Option Instr := none

/-! ### Reading bytes -/

/-- Byte `i` of a record, frame or packet; 0 past its end. -/
def byteAt (r : List Byte) (i : Nat) : Byte := r.getD i 0

/-- The two-byte field at `i`, most significant byte first (R193). -/
def halfAt (r : List Byte) (i : Nat) : BitVec 16 := byteAt r i ++ byteAt r (i + 1)

/-- A one-byte field of a record that carries a presence mask: bit `bit` of mask byte `m` names it (R197). -/
def maskedByte (r : List Byte) (m bit i : Nat) : Option Byte := if (byteAt r m).getLsbD bit then some (byteAt r i) else none

/-- A two-byte field of a record that carries a presence mask (R197). -/
def maskedHalf (r : List Byte) (m bit i : Nat) : Option (BitVec 16) := if (byteAt r m).getLsbD bit then some (halfAt r i) else none

/-! ### Laying bytes out -/

/-- A two-byte field, most significant byte first (R193). -/
def halfBytes (x : BitVec 16) : List Byte := [x.extractLsb' 8 8, x.extractLsb' 0 8]

/-- The presence bit of a field in its mask byte (R197). -/
def presence {α : Type} (bit : Nat) (f : Option α) : Byte := if f.isSome then 1#8 <<< bit else 0

/-- The bytes of a masked one-byte field; 0 when left out. -/
def optByte (f : Option Byte) : List Byte := [f.getD 0]

/-- The bytes of a masked two-byte field; 0 when left out. -/
def optHalf (f : Option (BitVec 16)) : List Byte := halfBytes (f.getD 0)

/-! ### Record kinds -/

/-- The fixed record length of a kind, or `none` for an unknown kind (R197, table 11.5). -/
def recordLength (kind : Byte) : Option Nat :=
  match kind.toNat with
  | 0x01 | 0x02 | 0x03 | 0x04 | 0x05 | 0x06 => some 14
  | 0x10 | 0x11 | 0x12 | 0x13 | 0x14 => some 14
  | 0x20 | 0x21 | 0x22 | 0x23 | 0x24 | 0x25 | 0x26 | 0x27 | 0x28 => some 14
  | 0x30 | 0x31 | 0x32 | 0x38 | 0x40 => some 14
  | 0x41 => some 16
  | 0x50 => some 30
  | 0x51 | 0x52 | 0x53 | 0x54 | 0x55 => some 14
  | 0x56 => some 16
  | 0x57 | 0x58 => some 14
  | _ => none

/-- What a record of an accepted packet is to MGE (R170): a command, or a known kind with a length that does not match. -/
inductive Waiting where
  | command (i : Instr)
  | badLength (kind : Byte)
  deriving DecidableEq, Repr

/-- Parameters of a LOAD_SEAT record (table 11.5, 0x01). -/
def decodeLoadSeat (r : List Byte) : LoadSeatParams where
  first := halfAt r 3
  last := halfAt r 5
  enabled := maskedByte r 2 0 7
  cls := maskedByte r 2 1 8
  trim := maskedByte r 2 2 9
  override := if (byteAt r 2).getLsbD 3 then some (byteAt r 10, halfAt r 11) else none

/-- Parameters of a SET_CLASS record (0x03). -/
def decodeSetClass (r : List Byte) : SetClassParams where
  cls := byteAt r 3
  kind := maskedByte r 2 0 4
  level := maskedByte r 2 1 5
  group := maskedByte r 2 2 6
  allowance := maskedHalf r 2 3 7
  action := maskedByte r 2 4 9
  offset := maskedByte r 2 5 10
  silenceRelease := maskedByte r 2 6 11
  replaceable := maskedByte r 2 7 12

/-- Parameters of a SET_ZONE record (0x05). -/
def decodeSetZone (r : List Byte) : SetZoneParams where
  zone := byteAt r 3
  enabled := maskedByte r 2 0 4
  base := maskedHalf r 2 1 5
  limit := maskedHalf r 2 2 7
  cap := maskedByte r 2 3 9

/-- Parameters of a SET_FLOOR record (0x50): three mask bytes, then the settings in the order of R180. -/
def decodeSetFloor (r : List Byte) : SetFloorParams where
  mode := maskedByte r 2 0 5
  floorLimit := maskedByte r 2 1 6
  chairReserve := maskedByte r 2 2 7
  policy := maskedByte r 2 3 8
  discipline := maskedByte r 2 4 9
  confirm := maskedByte r 2 5 10
  confirmWindow := maskedHalf r 2 6 11
  pressAsConfirm := maskedByte r 2 7 13
  secondPressCancels := maskedByte r 3 0 14
  priorityAction := maskedByte r 3 1 15
  nomAttenuation := maskedByte r 3 2 16
  levelMonitor := maskedByte r 3 3 17
  windowExponent := maskedByte r 3 4 18
  gateThreshold := maskedHalf r 3 5 19
  releaseThreshold := maskedHalf r 3 6 21
  silenceCountSetting := maskedByte r 3 7 23
  warnLead := maskedHalf r 4 0 24
  retryLimit := maskedByte r 4 1 26
  silenceLimit := maskedByte r 4 2 27
  autoCensus := maskedByte r 4 3 28

/-- The 14 enables of SET_NOTICES and SET_REPORT, from byte 2 (0x41, 0x56). -/
def decodeEnables (r : List Byte) : Vector Byte 14 :=
  #v[byteAt r 2, byteAt r 3, byteAt r 4, byteAt r 5, byteAt r 6, byteAt r 7, byteAt r 8, byteAt r 9, byteAt r 10, byteAt r 11,
    byteAt r 12, byteAt r 13, byteAt r 14, byteAt r 15]

/-- The command of a record whose length matches its kind (table 11.5). -/
def decodeKnown (r : List Byte) : Instr :=
  match (byteAt r 0).toNat with
  | 0x01 => .loadSeat (decodeLoadSeat r)
  | 0x02 => .readSeat (halfAt r 2)
  | 0x03 => .setClass (decodeSetClass r)
  | 0x04 => .readClass (byteAt r 2)
  | 0x05 => .setZone (decodeSetZone r)
  | 0x06 => .readZone (byteAt r 2)
  | 0x10 => .census (byteAt r 2)
  | 0x11 => .abortCensus (byteAt r 2)
  | 0x12 => .holdTrunk (byteAt r 2)
  | 0x13 => .releaseTrunk (byteAt r 2)
  | 0x14 => .readTrunk (byteAt r 2)
  | 0x20 => .close (halfAt r 2)
  | 0x21 => .closeAll
  | 0x22 => .readChannels
  | 0x23 => .insertRequest (halfAt r 2) (byteAt r 4)
  | 0x24 => .cancelRequest (halfAt r 2)
  | 0x25 => .clearList
  | 0x26 => .readList (byteAt r 2) (byteAt r 3)
  | 0x27 => .next
  | 0x28 => .grant (halfAt r 2)
  | 0x30 => .claimList
  | 0x31 => .yieldList
  | 0x32 => .forceList (byteAt r 2)
  | 0x38 => .readMix
  | 0x40 => .batch (byteAt r 2)
  | 0x41 => .setNotices (decodeEnables r)
  | 0x50 => .setFloor (decodeSetFloor r)
  | 0x51 => .readSettings
  | 0x52 => .openSitting
  | 0x53 => .closeSitting
  | 0x54 => .readStatus
  | 0x55 => .clearStatus (halfAt r 2)
  | 0x56 => .setReport (decodeEnables r)
  | 0x57 => .resetEngine
  | 0x58 => .readIdent
  | _ => .unknownRecord (byteAt r 0)

/-- MGE's first checks on a record: its kind, then its length (R170, R197). Total on any bytes. -/
def decodeRecord (r : List Byte) : Waiting :=
  match recordLength (byteAt r 0) with
  | none => .command (.unknownRecord (byteAt r 0))
  | some n => if r.length = n ∧ (byteAt r 1).toNat = n then .command (decodeKnown r) else .badLength (byteAt r 0)

/-! ### Encoding records -/

/-- A record: kind, length, parameters, and reserved bytes of 0 up to the length (R193, R197). -/
def record (kind : Byte) (len : Nat) (params : List Byte) : List Byte :=
  kind :: BitVec.ofNat 8 len :: (params ++ List.replicate (len - 2 - params.length) 0)

/-- A record of the standard length of 14 bytes. -/
def record14 (kind : Byte) (params : List Byte) : List Byte := record kind 14 params

/-- Layout of LOAD_SEAT. -/
def encodeLoadSeat (p : LoadSeatParams) : List Byte :=
  record14 0x01 ([presence 0 p.enabled ||| presence 1 p.cls ||| presence 2 p.trim ||| presence 3 p.override] ++ halfBytes p.first
    ++ halfBytes p.last ++ optByte p.enabled ++ optByte p.cls ++ optByte p.trim ++ [(p.override.getD (0, 0)).1]
    ++ halfBytes (p.override.getD (0, 0)).2)

/-- Layout of SET_CLASS. -/
def encodeSetClass (p : SetClassParams) : List Byte :=
  record14 0x03 ([presence 0 p.kind ||| presence 1 p.level ||| presence 2 p.group ||| presence 3 p.allowance ||| presence 4 p.action
    ||| presence 5 p.offset ||| presence 6 p.silenceRelease ||| presence 7 p.replaceable] ++ [p.cls] ++ optByte p.kind
    ++ optByte p.level ++ optByte p.group ++ optHalf p.allowance ++ optByte p.action ++ optByte p.offset
    ++ optByte p.silenceRelease ++ optByte p.replaceable)

/-- Layout of SET_ZONE. -/
def encodeSetZone (p : SetZoneParams) : List Byte :=
  record14 0x05 ([presence 0 p.enabled ||| presence 1 p.base ||| presence 2 p.limit ||| presence 3 p.cap] ++ [p.zone]
    ++ optByte p.enabled ++ optHalf p.base ++ optHalf p.limit ++ optByte p.cap)

/-- Layout of SET_FLOOR. -/
def encodeSetFloor (p : SetFloorParams) : List Byte :=
  record 0x50 30
    ([presence 0 p.mode ||| presence 1 p.floorLimit ||| presence 2 p.chairReserve ||| presence 3 p.policy ||| presence 4 p.discipline
        ||| presence 5 p.confirm ||| presence 6 p.confirmWindow ||| presence 7 p.pressAsConfirm,
      presence 0 p.secondPressCancels ||| presence 1 p.priorityAction ||| presence 2 p.nomAttenuation ||| presence 3 p.levelMonitor
        ||| presence 4 p.windowExponent ||| presence 5 p.gateThreshold ||| presence 6 p.releaseThreshold
        ||| presence 7 p.silenceCountSetting,
      presence 0 p.warnLead ||| presence 1 p.retryLimit ||| presence 2 p.silenceLimit ||| presence 3 p.autoCensus]
      ++ optByte p.mode ++ optByte p.floorLimit ++ optByte p.chairReserve ++ optByte p.policy ++ optByte p.discipline
      ++ optByte p.confirm ++ optHalf p.confirmWindow ++ optByte p.pressAsConfirm ++ optByte p.secondPressCancels
      ++ optByte p.priorityAction ++ optByte p.nomAttenuation ++ optByte p.levelMonitor ++ optByte p.windowExponent
      ++ optHalf p.gateThreshold ++ optHalf p.releaseThreshold ++ optByte p.silenceCountSetting ++ optHalf p.warnLead
      ++ optByte p.retryLimit ++ optByte p.silenceLimit ++ optByte p.autoCensus)

/-- The bytes of a record command (table 11.5); `none` for a command that is no control record. An unknown record is laid out with
the standard length. -/
def encodeRecord : Instr → Option (List Byte)
  | .unknownRecord kind => some (record14 kind [])
  | .loadSeat p => some (encodeLoadSeat p)
  | .readSeat code => some (record14 0x02 (halfBytes code))
  | .setClass p => some (encodeSetClass p)
  | .readClass c => some (record14 0x04 [c])
  | .setZone p => some (encodeSetZone p)
  | .readZone z => some (record14 0x06 [z])
  | .census t => some (record14 0x10 [t])
  | .abortCensus t => some (record14 0x11 [t])
  | .holdTrunk t => some (record14 0x12 [t])
  | .releaseTrunk t => some (record14 0x13 [t])
  | .readTrunk t => some (record14 0x14 [t])
  | .close code => some (record14 0x20 (halfBytes code))
  | .closeAll => some (record14 0x21 [])
  | .readChannels => some (record14 0x22 [])
  | .insertRequest code index => some (record14 0x23 (halfBytes code ++ [index]))
  | .cancelRequest code => some (record14 0x24 (halfBytes code))
  | .clearList => some (record14 0x25 [])
  | .readList first count => some (record14 0x26 [first, count])
  | .next => some (record14 0x27 [])
  | .grant code => some (record14 0x28 (halfBytes code))
  | .claimList => some (record14 0x30 [])
  | .yieldList => some (record14 0x31 [])
  | .forceList f => some (record14 0x32 [f])
  | .readMix => some (record14 0x38 [])
  | .batch n => some (record14 0x40 [n])
  | .setNotices e => some (record 0x41 16 e.toList)
  | .setFloor p => some (encodeSetFloor p)
  | .readSettings => some (record14 0x51 [])
  | .openSitting => some (record14 0x52 [])
  | .closeSitting => some (record14 0x53 [])
  | .readStatus => some (record14 0x54 [])
  | .clearStatus mask => some (record14 0x55 (halfBytes mask))
  | .setReport e => some (record 0x56 16 e.toList)
  | .resetEngine => some (record14 0x57 [])
  | .readIdent => some (record14 0x58 [])
  | .powerOnReset | .brownoutReset | .pinReset | .startUpHoldEnd | .hallFrameValid _ | .hallFrameInvalid _ | .hallFrameMissing
  | .hallLinkUp _ | .hallLinkLost | .hallAlignFail | .hallFrameSend | .mixComputation | .decisecondExpiry | .secondExpiry
  | .speakWarning _ | .speakExpiry _ | .offerLapse _ | .silenceTimerExpiry | .trunkFrameGood _ _ | .trunkFrameMalformed _ _
  | .trunkFrameMissing _ | .trunkUp _ _ | .trunkTrainingFail _ | .trunkLinkLost _ | .trunkFrameSend _ | .hello _ _ _ _
  | .micPress _ _ _ _ | .confirm _ _ _ _ | .priorityDown _ _ _ _ | .priorityUp _ _ _ _ | .chairNext _ _ _ _ | .chairClear _ _ _ _
  | .takeList _ _ _ _ | .giveList _ _ _ _ | .openComplete _ _ | .muteComplete _ _ | .unmuteComplete _ _ | .closeComplete _ _
  | .offerComplete _ _ | .indicationComplete _ _ | .probeAnswered _ _ _ | .commandAttemptFailed _ | .levelWindowComplete _ _
  | .silenceRelease _ | .withdrawComplete _ _ => none

end Sys2Proof
end

