-- ==== Sys2Proof/Config.lean ====
section
/-! DEFINITION. What every engine fixes (capacities, 00_scope 2.4; start-up holds, R191), and the one value the manual leaves open. -/

namespace Sys2Proof.Config

/-- Request list entries (R73). -/
def listCapacity : Nat := 64

/-- Notices in the notice queue (R173). -/
def noticeCapacity : Nat := 32

/-- Places of the reply queue (R169). -/
def replyCapacity : Nat := 4

/-- Chair-kind seats (R9). -/
def chairCapacity : Nat := 8

/-- Valid frames that bring the hall link UP (R164). -/
def hallUpRun : Nat := 32

/-- Good frames that bring a trunk UP (R24). -/
def trunkUpRun : Nat := 64

/-- Bad frame times in a row that end alignment, training or a link (R24, R164). -/
def badRunLimit : Nat := 8

/-- Start-up hold after power-on and brown-out, in milliseconds (R191). -/
def longHold : Nat := 40

/-- Start-up hold after a pin reset, in milliseconds (R191). -/
def pinHold : Nat := 2

/-- Hall frame times in one decisecond (R136). -/
def framesPerDecisecond : Nat := 1600

/-- FREE VALUE (log entry 11). The byte by which a NEXT reply says whether the seat was offered (`true`) or opened (`false`): R111
names the field and 11.6 lists no code for it. -/
opaque nextOutcomeCode : Bool → Byte

end Sys2Proof.Config
end

