-- ==== Sys2Proof/Machine/State.lean ====
section
/-! DEFINITION. The engine's state, block by block, as plain data, and the state after reset. Constructors of a coded
enumeration stand in the order of the code tables of 11.6. -/

namespace Sys2Proof.Machine

/-- The spec gives no event that stops the engine (INVENTORY.md, Faults), so no meaning raises a fault. -/
inductive Fault where
  deriving DecidableEq, Repr

/-- Why a command has no meaning in the model. -/
inductive Refusal where
  /-- Raised only by an arm of `exec` for a row without a meaning (safe: a claim about that row cannot be proved). -/
  | notModelled (mnemonic : String)
  deriving DecidableEq, Repr

/-! ### Seat table (chapter 1) -/

/-- R3. -/
inductive Availability where
  | absent | present | unreachable
  deriving DecidableEq, Repr

/-- R7. -/
inductive ClassKind where
  | delegate | chair | listener
  deriving DecidableEq, Repr

/-- R7. -/
inductive Group where
  | high | low
  deriving DecidableEq, Repr

/-- R7, R141. -/
inductive ExpiryAction where
  | notify | close
  deriving DecidableEq, Repr

/-- A seat record (R2). -/
structure SeatRec where
  availability : Availability
  enabled : Bool
  cls : Fin 8
  trim : Int
  override : Option Nat
  confirmKey : Option Bool
  lastSerial : Option (Fin 16)
  grants : Nat
  speakingTotal : Nat
  deriving DecidableEq, Repr

/-- A class record (R7). -/
structure ClassRec where
  kind : ClassKind
  level : Fin 8
  group : Group
  allowance : Nat
  action : ExpiryAction
  offset : Int
  silenceRelease : Bool
  replaceable : Bool
  deriving DecidableEq, Repr

/-- A zone window (R14). -/
structure ZoneRec where
  enabled : Bool
  base : Nat
  limit : Nat
  cap : Nat
  deriving DecidableEq, Repr

/-- The Seat Table. Seat records are indexed by trunk times 120 plus the position index. -/
structure Stb where
  seats : Vector SeatRec 480
  classes : Vector ClassRec 8
  zones : Vector ZoneRec 8
  deriving DecidableEq, Repr

/-! ### Trunk ports (chapter 2) -/

/-- R24. -/
inductive LinkState where
  | down | training | up | held
  deriving DecidableEq, Repr

/-- R39-R42. -/
inductive CensusOutcome where
  | none | done | aborted | linkFault
  deriving DecidableEq, Repr

/-- A seat command with its argument (R31, R40); PROBE is issued by the census and never queued. -/
inductive Cmd where
  | openMic (slot : Fin 6) (muted : Bool)
  | close
  | mute
  | unmute
  | offer
  | withdraw
  | allOff
  | queued
  | refused
  | warn
  | listState (holding : Bool)
  | probe
  deriving DecidableEq, Repr

/-- An entry of a command queue (R31): the position addressed, `none` for ALL_OFF. Class follows from the command, age from the place. -/
structure QEntry where
  target : Option (Fin 120)
  cmd : Cmd
  deriving DecidableEq, Repr

/-- R33, R34. -/
inductive FlightStatus where
  | sent | retry
  deriving DecidableEq, Repr

/-- The in-flight command (R22). -/
structure InFlight where
  pos : Fin 120
  cmd : Cmd
  attempts : Nat
  frame : Byte
  status : FlightStatus
  deriving DecidableEq, Repr

/-- An echo awaiting the next downstream frame (R28). -/
structure Echo where
  pos : Fin 120
  serial : Fin 16
  deriving DecidableEq, Repr

/-- A Trunk Port Controller (R22). `framesSent` (0-4) is the model's own (log entry 8): how many of the last four downstream
frames exist. -/
structure Tpc where
  link : LinkState
  goodRun : Nat
  badRun : Nat
  nextFrame : Byte
  framesSent : Nat
  lastAnswered : Option Byte
  echoes : List Echo
  queue : List QEntry
  inFlight : Option InFlight
  censusRunning : Bool
  censusOutcome : CensusOutcome
  probed : Nat
  presentCount : Nat
  nextProbe : Nat
  lostLinks : Nat
  cmdFailures : Nat
  deriving DecidableEq, Repr

/-! ### Floor arbiter (chapters 3 to 6) -/

/-- R51; `opened` is the spec's OPEN. -/
inductive ChanState where
  | free | offered | opening | opened | held | closing
  deriving DecidableEq, Repr

/-- R53. -/
inductive OpeningCause where
  | direct | promoted | grant | chair | succession
  deriving DecidableEq, Repr

/-- R61. -/
inductive CloseCause where
  | released | controller | closeAll | replaced | time | silence | priority | disabled | link | unreachable | rejected | sitting
  deriving DecidableEq, Repr

/-- R78. -/
inductive RemovalCause where
  | withdrawn | declined | opened | lapsed | cancelled | cleared | lost | disabled | rejected | sitting
  deriving DecidableEq, Repr

/-- A channel entry (R50). -/
structure Channel where
  state : ChanState
  seat : Option Seat
  trunk : Option (Fin 4)
  slot : Option (Fin 6)
  level : Option (Fin 8)
  kind : Option ClassKind
  cause : Option OpeningCause
  mutedAtOpen : Option Bool
  reachedOpen : Option Bool
  successor : Option Seat
  closeCause : Option CloseCause
  deriving DecidableEq, Repr

/-- R74. -/
inductive Origin where
  | seat | controller | chairBypass
  deriving DecidableEq, Repr

/-- R72. -/
inductive EntryState where
  | waiting | offered
  deriving DecidableEq, Repr

/-- A request-list entry (R72). -/
structure Entry where
  seat : Seat
  kind : ClassKind
  level : Fin 8
  group : Group
  origin : Origin
  state : EntryState
  window : Option Nat
  deadline : Option Nat
  deriving DecidableEq, Repr

/-- The Floor Arbiter: floor table (R50), open sequence (R52), request list (R72), hold set and level (R117), list-control record
(R125), promotion-deferred mark (R109). The hold set is kept in ascending seat-code order. -/
structure Far where
  channels : Vector Channel 12
  openSeq : List (Fin 12)
  list : List Entry
  holdSet : List Seat
  holdLevel : Fin 8
  claimed : Bool
  holder : Option Seat
  forceReturn : Bool
  promotionDeferred : Bool
  deriving DecidableEq, Repr

/-- The seat's floor state, derived and not stored (R20). -/
inductive FloorState where
  | idle | waiting | offered | opening | opened | held | closing | succeeding
  deriving DecidableEq, Repr

/-! ### Speaking timer, level monitor and mixer (chapters 7 and 8) -/

/-- Per-channel state of SLM (R135). -/
structure SlmChan where
  clock : Nat
  warned : Bool
  overrun : Bool
  progress : Option Nat
  exponent : Option Nat
  sum : Nat
  level : Option Nat
  gateActive : Bool
  silenceCount : Nat
  deriving DecidableEq, Repr

/-- Per-channel state of FMX (R151), with what READ_MIX reports of the last computation (R162). -/
structure FmxChan where
  latest : Int
  fresh : Bool
  slotSample : Int
  mixed : Bool
  gateCounted : Bool
  mixGain : Option Int
  slotGain : Option Int
  deriving DecidableEq, Repr

/-- The Floor Mixer (R151). -/
structure Fmx where
  chans : Vector FmxChan 12
  mixSample : Int
  nomCount : Nat
  attenuation : Nat
  clipped : Bool
  deriving DecidableEq, Repr

/-! ### Hall link interface (chapter 9) -/

/-- R164. -/
inductive HallState where
  | down | aligning | up
  deriving DecidableEq, Repr

/-- HOLD change (R123). -/
inductive HoldChange where
  | joined | left | level
  deriving DecidableEq, Repr

/-- A notice with its fields (R70, R91, R150, R3, R24, R41, R123, R125). -/
inductive Notice where
  | chOpen (c : Fin 12) (seat : Seat) (slot : Option (Fin 6)) (cause : Option OpeningCause) (entered : ChanState)
  | chHeld (c : Fin 12) (seat : Seat)
  | chResumed (c : Fin 12) (seat : Seat)
  | chClose (c : Fin 12) (seat : Seat) (cause : CloseCause) (clock : Nat)
  | listAdd (seat : Seat) (index : Nat) (origin : Origin) (length : Nat)
  | listRemove (seat : Seat) (cause : RemovalCause) (index : Nat) (length : Nat)
  | offer (seat : Seat) (c : Fin 12) (slot : Option (Fin 6)) (window : Nat)
  | warn (c : Fin 12) (seat : Seat) (clock : Nat) (allowance : Nat) (lead : Nat)
  | expired (c : Fin 12) (seat : Seat) (clock : Nat) (allowance : Nat) (action : ExpiryAction)
  | seat (seat : Seat) (availability : Availability)
  | trunk (t : Fin 4) (link : LinkState)
  | census (t : Fin 4) (outcome : CensusOutcome) (present : Nat)
  | hold (seat : Option Seat) (change : HoldChange) (level : Fin 8) (members : Nat)
  | listControl (claimed : Bool) (holder : Option Seat) (forceReturn : Bool)
  deriving DecidableEq, Repr

/-- Status codes of reply records (R170). -/
inductive Status where
  | ok | clamped | busy | badField | locked | notOwner | noSeat | state | full | nested | unknown | none | skipped
  deriving DecidableEq, Repr

/-- A reply record: record kind, status, result fields as bytes (R170, R196). -/
structure ReplyRecord where
  kind : Byte
  status : Status
  fields : List Byte
  deriving DecidableEq, Repr

/-- A place of the reply queue (R169): the packet's sequence number, its records not yet executed, the replies built so far.
The reply is ready when no record waits. -/
structure Place where
  seq : Byte
  malformed : Bool
  waiting : List (List Byte)
  answered : List ReplyRecord
  deriving DecidableEq, Repr

/-- What the lane sender is sending (R175): the reply of a place, or a packet of so many notices. -/
inductive LaneSource where
  | reply (place : Nat)
  | notices (count : Nat)
  deriving DecidableEq, Repr

/-- The packet on the upstream lane and the bytes already sent (R163). -/
structure LaneSender where
  source : LaneSource
  bytes : List Byte
  sent : Nat
  deriving DecidableEq, Repr

/-- The Hall Link Interface (R163). Bit k-1 of the notice mask enables the notice kind of code k. -/
structure Hli where
  link : HallState
  validRun : Nat
  badRun : Nat
  lastFrame : Option Byte
  assembly : Option (List Byte)
  replyQueue : List Place
  upFrame : Byte
  laneSender : Option LaneSender
  noticeQueue : List Notice
  noticeMask : BitVec 14
  attended : Bool
  silenceTimer : Option Nat
  deriving DecidableEq, Repr

/-! ### Management engine (chapter 10) -/

/-- R97. -/
inductive Mode where
  | direct | list | auto
  deriving DecidableEq, Repr

/-- R102. -/
inductive Policy where
  | queue | deny | replace
  deriving DecidableEq, Repr

/-- R75. -/
inductive Discipline where
  | arrival | grouped | level
  deriving DecidableEq, Repr

/-- R119. -/
inductive PriorityAction where
  | mute | close
  deriving DecidableEq, Repr

/-- The 20 floor settings (R180). -/
structure Settings where
  mode : Mode
  floorLimit : Nat
  chairReserve : Nat
  policy : Policy
  discipline : Discipline
  confirm : Bool
  confirmWindow : Nat
  pressAsConfirm : Bool
  secondPressCancels : Bool
  priorityAction : PriorityAction
  nomAttenuation : Bool
  levelMonitor : Bool
  windowExponent : Nat
  gateThreshold : Nat
  releaseThreshold : Nat
  silenceCountSetting : Nat
  warnLead : Nat
  retryLimit : Nat
  silenceLimit : Nat
  autoCensus : Bool
  deriving DecidableEq, Repr

/-- R191. -/
inductive ResetCause where
  | power | brownout | pin | command
  deriving DecidableEq, Repr

/-- The sticky flags, in bit-position order (R186). -/
inductive Flag where
  | queueFull | offerLapsed | seatLost | linkLost | censusDone | censusFault | clip | noticeLost | laneError | laneOverrun
  | fallback | resetSeen | badEvent | speakExpired
  deriving DecidableEq, Repr

/-- The Management Engine (R179). `batch` is `none` when the scope is closed, and otherwise the records remaining (R172). -/
structure Mge where
  settings : Settings
  sittingOpen : Bool
  flags : BitVec 14
  reportMask : BitVec 14
  refused : Nat
  lapsed : Nat
  noticesLost : Nat
  resetCause : ResetCause
  batch : Option Nat
  decisecondPhase : Nat
  secondPhase : Nat
  deriving DecidableEq, Repr

/-! ### The engine -/

/-- The whole state. The model's own fields: `lastReply`, `hallOut`, `trunkOut` (log entries 3, 19) and the queue `pending`. -/
structure State where
  startUpHold : Option Nat
  hli : Hli
  mge : Mge
  stb : Stb
  trunks : Vector Tpc 4
  far : Far
  slm : Vector SlmChan 12
  fmx : Fmx
  lastReply : Option ReplyRecord
  hallOut : Option (List Byte)
  trunkOut : Vector (Option (List Byte)) 4
  pending : List Instr
  deriving DecidableEq, Repr

/-! ### Reset values -/

/-- Reset column of R2. -/
def SeatRec.reset : SeatRec where
  availability := .absent
  enabled := true
  cls := 0
  trim := 0
  override := none
  confirmKey := none
  lastSerial := none
  grants := 0
  speakingTotal := 0

/-- Reset column of R7 for a class number. -/
def ClassRec.reset (n : Fin 8) : ClassRec where
  kind := if n = 7 then .chair else .delegate
  level := n
  group := if n < 4 then .low else .high
  allowance := 0
  action := .notify
  offset := 0
  silenceRelease := false
  replaceable := n ≠ 7

/-- Reset column of R14. -/
def ZoneRec.reset : ZoneRec := ⟨false, 0, 0, 0⟩

/-- The Seat Table at reset. -/
def Stb.reset : Stb where
  seats := Vector.replicate 480 SeatRec.reset
  classes := #v[ClassRec.reset 0, ClassRec.reset 1, ClassRec.reset 2, ClassRec.reset 3, ClassRec.reset 4, ClassRec.reset 5,
    ClassRec.reset 6, ClassRec.reset 7]
  zones := Vector.replicate 8 ZoneRec.reset

/-- Reset column of R22. -/
def Tpc.reset : Tpc where
  link := .down
  goodRun := 0
  badRun := 0
  nextFrame := 0
  framesSent := 0
  lastAnswered := none
  echoes := []
  queue := []
  inFlight := none
  censusRunning := false
  censusOutcome := .none
  probed := 0
  presentCount := 0
  nextProbe := 1
  lostLinks := 0
  cmdFailures := 0

/-- A FREE channel: reset column of R50, and R63 step 5. -/
def Channel.reset : Channel := ⟨.free, none, none, none, none, none, none, none, none, none, none⟩

/-- FAR at reset (R50, R52, R72, R109, R117, R125). -/
def Far.reset : Far where
  channels := Vector.replicate 12 Channel.reset
  openSeq := []
  list := []
  holdSet := []
  holdLevel := 0
  claimed := false
  holder := none
  forceReturn := false
  promotionDeferred := false

/-- Reset column, and At-allocation column, of R135: they are equal. -/
def SlmChan.reset : SlmChan := ⟨0, false, false, none, none, 0, none, true, 0⟩

/-- Reset column of R151, per channel, with R162's report before the first computation. -/
def FmxChan.reset : FmxChan := ⟨0, false, 0, false, false, none, none⟩

/-- Reset column of R151. -/
def Fmx.reset : Fmx := ⟨Vector.replicate 12 FmxChan.reset, 0, 0, 0, false⟩

/-- Reset column of R163. -/
def Hli.reset : Hli where
  link := .down
  validRun := 0
  badRun := 0
  lastFrame := none
  assembly := none
  replyQueue := []
  upFrame := 0
  laneSender := none
  noticeQueue := []
  noticeMask := 0x3FFF
  attended := false
  silenceTimer := none

/-- Reset column of R180. -/
def Settings.reset : Settings where
  mode := .direct
  floorLimit := 6
  chairReserve := 1
  policy := .queue
  discipline := .arrival
  confirm := false
  confirmWindow := 100
  pressAsConfirm := true
  secondPressCancels := true
  priorityAction := .mute
  nomAttenuation := true
  levelMonitor := true
  windowExponent := 10
  gateThreshold := 256
  releaseThreshold := 128
  silenceCountSetting := 100
  warnLead := 30
  retryLimit := 3
  silenceLimit := 30
  autoCensus := true

/-- Reset column of R179: flags RESET_SEEN (bit 11) only; report mask SEAT_LOST, LINK_LOST, FALLBACK, RESET_SEEN (bits 2, 3, 10, 11). -/
def Mge.reset (cause : ResetCause) : Mge where
  settings := Settings.reset
  sittingOpen := false
  flags := 0x0800
  reportMask := 0x0C0C
  refused := 0
  lapsed := 0
  noticesLost := 0
  resetCause := cause
  batch := none
  decisecondPhase := 0
  secondPhase := 0

/-- The engine after a power-on, brown-out or pin reset: every block at its Reset column, in the start-up hold of the cause (R191). -/
def State.resetBy (cause : ResetCause) (holdMs : Nat) : State where
  startUpHold := some holdMs
  hli := Hli.reset
  mge := Mge.reset cause
  stb := Stb.reset
  trunks := Vector.replicate 4 Tpc.reset
  far := Far.reset
  slm := Vector.replicate 12 SlmChan.reset
  fmx := Fmx.reset
  lastReply := none
  hallOut := none
  trunkOut := Vector.replicate 4 none
  pending := []

/-- The machine right after power-on reset (R191; log entry 5). -/
def State.reset : State := State.resetBy .power Config.longHold

end Sys2Proof.Machine
end

