-- ==== Sys2Proof/Machine/Operands.lean ====
section
/-! DEFINITION. Operand forms: seat codes, numbered objects, coded fields, clamped numbers, and the codes of 11.6. -/

namespace Sys2Proof.Machine

/-! ### Seats (R1) -/

/-- Position 1-120 of a position index. -/
def posNumber (p : Fin 120) : Nat := p.val + 1

/-- The seat code: trunk times 128 plus the position (R1). -/
def seatCode (s : Seat) : Nat := s.trunk.val * 128 + posNumber s.pos

/-- The valid seat a code names; `none` for 0, an invalid code, or a code beyond 504 (R1). -/
def seatOfCode (code : Nat) : Option Seat :=
  if h : code / 128 < 4 ∧ code % 128 - 1 < 120 then
    if code % 128 = 0 then none else some ⟨⟨code / 128, h.1⟩, ⟨code % 128 - 1, h.2⟩⟩
  else none

/-- Highest seat code (R1). -/
def maxSeatCode : Nat := 504

/-- Where the seat's record stands in the Seat Table. -/
def seatIndex (s : Seat) : Fin 480 := ⟨s.trunk.val * 120 + s.pos.val, by have := s.trunk.isLt; have := s.pos.isLt; omega⟩

/-- The seat of a record of the Seat Table. -/
def seatAt (i : Fin 480) : Seat := ⟨⟨i.val / 120, by have := i.isLt; omega⟩, ⟨i.val % 120, by omega⟩⟩

/-- The four trunks. -/
def allTrunks : List (Fin 4) := [0, 1, 2, 3]

/-- The twelve channels, ascending. -/
def allChans : List (Fin 12) := [0, 1, 2, 3, 4, 5, 6, 7, 8, 9, 10, 11]

/-- The six talk slots, ascending. -/
def allSlots : List (Fin 6) := [0, 1, 2, 3, 4, 5]

/-- The eight zone windows, ascending. -/
def allZones : List (Fin 8) := [0, 1, 2, 3, 4, 5, 6, 7]

/-- All seats in ascending seat-code order (R4). -/
def allSeats : List Seat := (List.finRange 480).map seatAt

/-- The seat of a position field of an event: `none` for position 0 and 121-127 (R26). -/
def seatOfPosition (t : Fin 4) (position : Fin 128) : Option Seat :=
  if h : 1 ≤ position.val ∧ position.val ≤ 120 then some ⟨t, ⟨position.val - 1, by omega⟩⟩ else none

/-! ### Coded fields (R193: an undefined code is `none`) -/

/-- A number below `n` read from a byte. -/
def finOfByte (n : Nat) (b : Byte) : Option (Fin n) := if h : b.toNat < n then some ⟨b.toNat, h⟩ else none

/-- On/off and yes/no. -/
def boolOfCode (b : Byte) : Option Bool := if b = 0 then some false else if b = 1 then some true else none

/-- Class kind. -/
def kindOfCode (b : Byte) : Option ClassKind :=
  if b = 0 then some .delegate else if b = 1 then some .chair else if b = 2 then some .listener else none

/-- Group. -/
def groupOfCode (b : Byte) : Option Group := if b = 0 then some .high else if b = 1 then some .low else none

/-- Expiry action. -/
def actionOfCode (b : Byte) : Option ExpiryAction := if b = 0 then some .notify else if b = 1 then some .close else none

/-- Floor mode. -/
def modeOfCode (b : Byte) : Option Mode := if b = 0 then some .direct else if b = 1 then some .list else if b = 2 then some .auto else none

/-- Full-floor policy. -/
def policyOfCode (b : Byte) : Option Policy :=
  if b = 0 then some .queue else if b = 1 then some .deny else if b = 2 then some .replace else none

/-- List discipline. -/
def disciplineOfCode (b : Byte) : Option Discipline :=
  if b = 0 then some .arrival else if b = 1 then some .grouped else if b = 2 then some .level else none

/-- Priority action. -/
def priorityOfCode (b : Byte) : Option PriorityAction := if b = 0 then some .mute else if b = 1 then some .close else none

/-- The level field of SET_CLASS: the low three bits (R193). -/
def levelOfByte (b : Byte) : Fin 8 := ⟨b.toNat % 8, Nat.mod_lt _ (by decide)⟩

/-- A masked coded field is acceptable when it is left out or holds a defined code (R197). -/
def codeOk {α : Type} (f : Byte → Option α) (o : Option Byte) : Bool :=
  match o with
  | none => true
  | some b => (f b).isSome

/-- The value of a masked coded field: the decoded code, or the value held when it is left out. -/
def codeOr {α : Type} (f : Byte → Option α) (o : Option Byte) (held : α) : α := (o.bind f).getD held

/-! ### Clamping (R10, R180) -/

/-- A number held to a range. -/
def clampNat (lo hi n : Nat) : Nat := if n < lo then lo else if hi < n then hi else n

/-- A signed number held to a range. -/
def clampInt (lo hi x : Int) : Int := if x < lo then lo else if hi < x then hi else x

/-- The value of a masked number, clamped; the value held when left out. -/
def numOr (lo hi : Nat) (o : Option Nat) (held : Nat) : Nat :=
  match o with
  | none => held
  | some n => clampNat lo hi n

/-- Whether clamping a masked number changed it. -/
def numClamped (lo hi : Nat) (o : Option Nat) : Bool :=
  match o with
  | none => false
  | some n => n ≠ clampNat lo hi n

/-- The value of a masked signed byte, clamped; the value held when left out. -/
def intOr (lo hi : Int) (o : Option Byte) (held : Int) : Int :=
  match o with
  | none => held
  | some b => clampInt lo hi b.toInt

/-- Whether clamping a masked signed byte changed it. -/
def intClamped (lo hi : Int) (o : Option Byte) : Bool :=
  match o with
  | none => false
  | some b => b.toInt ≠ clampInt lo hi b.toInt

/-- A masked byte as a number. -/
def byteNum (o : Option Byte) : Option Nat := o.map BitVec.toNat

/-- A masked two-byte field as a number. -/
def halfNum (o : Option (BitVec 16)) : Option Nat := o.map BitVec.toNat

/-- A saturating count (00_scope 4.5). -/
def satAdd (top a b : Nat) : Nat := min top (a + b)

/-! ### Codes sent (11.6) -/

/-- Availability code. -/
def Availability.code : Availability → Nat
  | .absent => 0 | .present => 1 | .unreachable => 2

/-- Class kind code. -/
def ClassKind.code : ClassKind → Nat
  | .delegate => 0 | .chair => 1 | .listener => 2

/-- Group code. -/
def Group.code : Group → Nat
  | .high => 0 | .low => 1

/-- Expiry action code. -/
def ExpiryAction.code : ExpiryAction → Nat
  | .notify => 0 | .close => 1

/-- Trunk link state code. -/
def LinkState.code : LinkState → Nat
  | .down => 0 | .training => 1 | .up => 2 | .held => 3

/-- Census outcome code. -/
def CensusOutcome.code : CensusOutcome → Nat
  | .none => 0 | .done => 1 | .aborted => 2 | .linkFault => 3

/-- Command code. -/
def Cmd.code : Cmd → Nat
  | .openMic _ _ => 1 | .close => 2 | .mute => 3 | .unmute => 4 | .offer => 5 | .withdraw => 6 | .allOff => 7 | .queued => 8
  | .refused => 9 | .warn => 10 | .listState _ => 11 | .probe => 12

/-- Channel state code. -/
def ChanState.code : ChanState → Nat
  | .free => 0 | .offered => 1 | .opening => 2 | .opened => 3 | .held => 4 | .closing => 5

/-- Seat floor state code. -/
def FloorState.code : FloorState → Nat
  | .idle => 0 | .waiting => 1 | .offered => 2 | .opening => 3 | .opened => 4 | .held => 5 | .closing => 6 | .succeeding => 7

/-- Opening cause code. -/
def OpeningCause.code : OpeningCause → Nat
  | .direct => 0 | .promoted => 1 | .grant => 2 | .chair => 3 | .succession => 4

/-- Close cause code, in the order of R61. -/
def CloseCause.code : CloseCause → Nat
  | .released => 0 | .controller => 1 | .closeAll => 2 | .replaced => 3 | .time => 4 | .silence => 5 | .priority => 6 | .disabled => 7
  | .link => 8 | .unreachable => 9 | .rejected => 10 | .sitting => 11

/-- Removal cause code, in the order of R78. -/
def RemovalCause.code : RemovalCause → Nat
  | .withdrawn => 0 | .declined => 1 | .opened => 2 | .lapsed => 3 | .cancelled => 4 | .cleared => 5 | .lost => 6 | .disabled => 7
  | .rejected => 8 | .sitting => 9

/-- List origin code. -/
def Origin.code : Origin → Nat
  | .seat => 0 | .controller => 1 | .chairBypass => 2

/-- Entry state code. -/
def EntryState.code : EntryState → Nat
  | .waiting => 0 | .offered => 1

/-- Hall link state code. -/
def HallState.code : HallState → Nat
  | .down => 0 | .aligning => 1 | .up => 2

/-- HOLD change code. -/
def HoldChange.code : HoldChange → Nat
  | .joined => 0 | .left => 1 | .level => 2

/-- Mode code. -/
def Mode.code : Mode → Nat
  | .direct => 0 | .list => 1 | .auto => 2

/-- Policy code. -/
def Policy.code : Policy → Nat
  | .queue => 0 | .deny => 1 | .replace => 2

/-- Discipline code. -/
def Discipline.code : Discipline → Nat
  | .arrival => 0 | .grouped => 1 | .level => 2

/-- Priority action code. -/
def PriorityAction.code : PriorityAction → Nat
  | .mute => 0 | .close => 1

/-- Reset cause code. -/
def ResetCause.code : ResetCause → Nat
  | .power => 0 | .brownout => 1 | .pin => 2 | .command => 3

/-- Status code, in the order of R170. -/
def Status.code : Status → Nat
  | .ok => 0 | .clamped => 1 | .busy => 2 | .badField => 3 | .locked => 4 | .notOwner => 5 | .noSeat => 6 | .state => 7 | .full => 8
  | .nested => 9 | .unknown => 10 | .none => 11 | .skipped => 12

/-- Notice kind code. -/
def Notice.code : Notice → Nat
  | .chOpen .. => 1 | .chHeld .. => 2 | .chResumed .. => 3 | .chClose .. => 4 | .listAdd .. => 5 | .listRemove .. => 6 | .offer .. => 7
  | .warn .. => 8 | .expired .. => 9 | .seat .. => 10 | .trunk .. => 11 | .census .. => 12 | .hold .. => 13 | .listControl .. => 14

end Sys2Proof.Machine
end

