-- ==== Sys2Proof/Machine/Flags.lean ====
section
/-! DEFINITION. The sticky status flags, the report mask and the attention mark (R176, R186-R188). -/

namespace Sys2Proof.Machine

/-- Bit position of a flag, in the order of the table of R186. -/
def Flag.bit : Flag → Nat
  | .queueFull => 0 | .offerLapsed => 1 | .seatLost => 2 | .linkLost => 3 | .censusDone => 4 | .censusFault => 5 | .clip => 6
  | .noticeLost => 7 | .laneError => 8 | .laneOverrun => 9 | .fallback => 10 | .resetSeen => 11 | .badEvent => 12 | .speakExpired => 13

/-- The flag word with one flag set; setting a set flag changes nothing (R186). -/
def flagsSet (f : Flag) (w : BitVec 14) : BitVec 14 := w ||| (1#14 <<< f.bit)

/-- Whether a flag is set. -/
def flagsHas (f : Flag) (w : BitVec 14) : Bool := w.getLsbD f.bit

/-- The flags a CLEAR_STATUS mask leaves: each named flag cleared; bits 15-14 reserved (R187, 0x55). -/
def flagsClear (mask : BitVec 16) (w : BitVec 14) : BitVec 14 := w &&& ~~~(mask.extractLsb' 0 14)

/-- Whether a CLEAR_STATUS mask names a flag. -/
def maskNames (mask : BitVec 16) (f : Flag) : Bool := mask.getLsbD f.bit

/-- Set a sticky flag (R186). -/
def State.setFlag (f : Flag) (s : State) : State := { s with mge := { s.mge with flags := flagsSet f s.mge.flags } }

/-- Whether a sticky flag is set. -/
def State.hasFlag (f : Flag) (s : State) : Bool := flagsHas f s.mge.flags

/-- The attention mark: some flag enabled in the report mask is set (R176). -/
def State.attention (s : State) : Bool := s.mge.flags &&& s.mge.reportMask ≠ 0

/-- A mask from 14 enables in code order: `none` when one holds an undefined code (R174, R188). -/
def maskOfEnables (enables : Vector Byte 14) : Option (BitVec 14) :=
  if enables.toList.all (fun b => (boolOfCode b).isSome) then
    some (enables.toList.reverse.foldl (fun w b => (w <<< 1) ||| (if b = 1 then 1#14 else 0#14)) 0#14)
  else none

/-- A mask as 14 one-byte enables in code order (log entry 12). -/
def enablesOfMask (w : BitVec 14) : List Byte := (List.finRange 14).map fun i => if w.getLsbD i.val then 1 else 0

end Sys2Proof.Machine
end

