-- ==== Sys2Proof/Machine/Ops.lean ====
section
/-! DEFINITION. Named reads and updates of the state, and the queuing of notices (R173). -/

namespace Sys2Proof.Machine

/-! ### Updates of one block -/

/-- Change FAR. -/
def State.modFar (f : Far → Far) (s : State) : State := { s with far := f s.far }

/-- Change MGE. -/
def State.modMge (f : Mge → Mge) (s : State) : State := { s with mge := f s.mge }

/-- Change HLI. -/
def State.modHli (f : Hli → Hli) (s : State) : State := { s with hli := f s.hli }

/-! ### Seats, classes, zones -/

/-- The seat's record (R2). -/
def State.seatRec (s : State) (seat : Seat) : SeatRec := vget s.stb.seats (seatIndex seat)

/-- Change the seat's record. -/
def State.modSeat (seat : Seat) (f : SeatRec → SeatRec) (s : State) : State :=
  { s with stb := { s.stb with seats := vset s.stb.seats (seatIndex seat) (f (s.seatRec seat)) } }

/-- The class record that governs the seat now (R2, R8). -/
def State.classOf (s : State) (seat : Seat) : ClassRec := vget s.stb.classes (s.seatRec seat).cls

/-- The seat's kind now. -/
def State.kindOf (s : State) (seat : Seat) : ClassKind := (s.classOf seat).kind

/-- The seat's level now. -/
def State.levelOf (s : State) (seat : Seat) : Fin 8 := (s.classOf seat).level

/-- Whether an enabled window contains a code (R14). -/
def ZoneRec.contains (z : ZoneRec) (code : Nat) : Bool := z.enabled && decide (z.base ≤ code) && decide (code ≤ z.limit)

/-- The seat's zone: the lowest-numbered enabled window that contains its code; `none` is zone G (R14). -/
def State.zoneOf (s : State) (seat : Seat) : Option (Fin 8) := allZones.find? fun z => (vget s.stb.zones z).contains (seatCode seat)

/-! ### Trunks and channels -/

/-- A trunk's TPC. -/
def State.tpc (s : State) (t : Fin 4) : Tpc := vget s.trunks t

/-- Change a trunk's TPC. -/
def State.modTpc (t : Fin 4) (f : Tpc → Tpc) (s : State) : State := { s with trunks := vset s.trunks t (f (s.tpc t)) }

/-- A channel entry of the floor table (R50). -/
def State.chan (s : State) (c : Fin 12) : Channel := vget s.far.channels c

/-- Change a channel entry. -/
def State.modChan (c : Fin 12) (f : Channel → Channel) (s : State) : State :=
  { s with far := { s.far with channels := vset s.far.channels c (f (s.chan c)) } }

/-- A channel's SLM state (R135). -/
def State.slmOf (s : State) (c : Fin 12) : SlmChan := vget s.slm c

/-- Change a channel's SLM state. -/
def State.modSlm (c : Fin 12) (f : SlmChan → SlmChan) (s : State) : State := { s with slm := vset s.slm c (f (s.slmOf c)) }

/-- A channel's FMX state (R151). -/
def State.fmxOf (s : State) (c : Fin 12) : FmxChan := vget s.fmx.chans c

/-- Change a channel's FMX state. -/
def State.modFmx (c : Fin 12) (f : FmxChan → FmxChan) (s : State) : State :=
  { s with fmx := { s.fmx with chans := vset s.fmx.chans c (f (s.fmxOf c)) } }

/-- No start-up hold is in force (R191). -/
def State.running (s : State) : Bool := s.startUpHold.isNone

/-! ### Notices (R173) -/

/-- Queue a notice: dropped unseen when its kind is disabled; otherwise it joins as the newest, or is counted lost on a full queue
(R173). -/
def State.notify (n : Notice) (s : State) : State :=
  if s.hli.noticeMask.getLsbD (n.code - 1) then
    if s.hli.noticeQueue.length < Config.noticeCapacity then
      s.modHli fun h => { h with noticeQueue := h.noticeQueue ++ [n] }
    else
      State.setFlag .noticeLost (s.modMge fun m => { m with noticesLost := satAdd 255 m.noticesLost 1 })
  else s

/-- A promotion trigger: FAR's mark records that a promotion is owed (R109, log entry 14). -/
def State.trigger (s : State) : State := s.modFar fun f => { f with promotionDeferred := true }

/-! ### Availability (R3) -/

/-- Change a seat's availability; on an actual change the last serial becomes absent and notice SEAT is queued (R3). -/
def State.setAvailability (seat : Seat) (a : Availability) (s : State) : State :=
  if (s.seatRec seat).availability = a then s
  else (s.modSeat seat fun r => { r with availability := a, lastSerial := none }).notify (.seat seat a)

end Sys2Proof.Machine
end

