-- ==== Sys2Proof/Machine/Queue.lean ====
section
/-! DEFINITION. A trunk's command queue: classes, placement, coalescing, discarding (R31, R32, R38). -/

namespace Sys2Proof.Machine

/-- Class of a command, 1 highest (R31). -/
def Cmd.cls : Cmd → Nat
  | .close | .mute | .withdraw | .allOff => 1
  | .openMic _ _ | .unmute => 2
  | .offer | .queued | .refused | .warn | .listState _ | .probe => 3

/-- QUEUED, REFUSED, WARN and LIST_STATE (R32). -/
def Cmd.isIndication : Cmd → Bool
  | .queued | .refused | .warn | .listState _ => true
  | .openMic _ _ | .close | .mute | .unmute | .offer | .withdraw | .allOff | .probe => false

/-- OPEN, CLOSE, MUTE, UNMUTE, OFFER and WITHDRAW (R32). -/
def Cmd.isFloor : Cmd → Bool
  | .openMic _ _ | .close | .mute | .unmute | .offer | .withdraw => true
  | .queued | .refused | .warn | .listState _ | .allOff | .probe => false

/-- What a placement reports to FAR (R32, R64). -/
inductive Report where
  /-- Nothing to report. -/
  | nothing
  /-- Row 1: an unsent OPEN and the new CLOSE dropped each other. -/
  | openDropped
  /-- Row 3: an unsent MUTE and the new UNMUTE dropped each other. -/
  | muteDropped
  /-- Row 4: an unsent UNMUTE and the new MUTE dropped each other. -/
  | unmuteDropped
  /-- Row 8: the new OPEN replaced an unsent CLOSE. -/
  | closeReplaced
  deriving DecidableEq, Repr

/-- Combine an unsent command with a new one for the same position, by the first row of R32 that matches: the command kept (`none`: both
dropped) and the report. -/
def coalesce (unsent new : Cmd) : Option Cmd × Report :=
  match unsent, new with
  | .openMic _ _, .close => (none, .openDropped)
  | .offer, .withdraw => (none, .nothing)
  | .mute, .unmute => (none, .muteDropped)
  | .unmute, .mute => (none, .unmuteDropped)
  | .close, .openMic k m => (some (.openMic k m), .closeReplaced)
  | .offer, .openMic k m => (some (.openMic k m), .nothing)
  | u, n =>
    if u = .close ∧ (n = .mute ∨ n = .unmute ∨ n.isIndication) then (some u, .nothing)
    else if u.isIndication ∧ n.isFloor then (some n, .nothing)
    else if u.isFloor ∧ n.isIndication then (some u, .nothing)
    else (some n, .nothing)

/-- Join the queue as the latest queued, or coalesce in place with the position's unsent command, keeping its age (R31, R32). -/
def enqueue (pos : Fin 120) (cmd : Cmd) : List QEntry → List QEntry × Report
  | [] => ([⟨some pos, cmd⟩], .nothing)
  | e :: q =>
    if e.target = some pos then
      match coalesce e.cmd cmd with
      | (some k, r) => ({ e with cmd := k } :: q, r)
      | (none, r) => (q, r)
    else ((e :: (enqueue pos cmd q).1), (enqueue pos cmd q).2)

/-- Place a command for a seat: discarded when its trunk is not UP or the seat is not PRESENT, and otherwise queued or coalesced (R31). -/
def State.placeReport (seat : Seat) (cmd : Cmd) (s : State) : State × Report :=
  if (s.tpc seat.trunk).link = .up ∧ (s.seatRec seat).availability = .present then
    (s.modTpc seat.trunk fun p => { p with queue := (enqueue seat.pos cmd p.queue).1 }, (enqueue seat.pos cmd (s.tpc seat.trunk).queue).2)
  else (s, .nothing)

/-- Place a command whose coalescing asks nothing of FAR. -/
def State.place (seat : Seat) (cmd : Cmd) (s : State) : State := (s.placeReport seat cmd).1

/-- Place ALL_OFF on a trunk: discarded when the trunk is not UP, dropped when one is unsent (R31, R37). -/
def State.placeAllOff (t : Fin 4) (s : State) : State :=
  if (s.tpc t).link = .up ∧ ¬ ((s.tpc t).queue.any fun e => e.target.isNone) then
    s.modTpc t fun p => { p with queue := p.queue ++ [⟨none, .allOff⟩] }
  else s

/-- The seat's unsent command. -/
def State.unsent (s : State) (seat : Seat) : Option Cmd :=
  ((s.tpc seat.trunk).queue.find? fun e => e.target = some seat.pos).map QEntry.cmd

/-- The seat's command in flight. -/
def State.inFlightFor (s : State) (seat : Seat) : Option Cmd :=
  match (s.tpc seat.trunk).inFlight with
  | some f => if f.pos = seat.pos then some f.cmd else none
  | none => none

/-- Discard the unsent command of a seat that leaves PRESENT (R38). -/
def State.discardUnsent (seat : Seat) (s : State) : State :=
  s.modTpc seat.trunk fun p => { p with queue := p.queue.filter fun e => e.target ≠ some seat.pos }

/-- The queued command R33 case 3 takes: of the highest class, the earliest queued. -/
def nextQueued (q : List QEntry) : Option QEntry :=
  (q.find? fun e => e.cmd.cls = 1) <|> (q.find? fun e => e.cmd.cls = 2) <|> q.head?

end Sys2Proof.Machine
end

