-- ==== Sys2Proof/Machine/Floor.lean ====
section
/-! DEFINITION. The Floor Arbiter's shared operations: derived floor state, eligibility, allocation, freeing, closing and handover, the
request list and offers, promotion (chapters 3, 4 and 5). -/

namespace Sys2Proof.Machine

/-! ### Looking things up -/

/-- The list entry of a seat (R73: at most one). -/
def State.entryOf (s : State) (seat : Seat) : Option Entry := s.far.list.find? fun e => e.seat = seat

/-- The index of a seat's entry, counted from the head (R72). -/
def State.listIndex (s : State) (seat : Seat) : Option Nat := s.far.list.findIdx? fun e => e.seat = seat

/-- The channel that belongs to a seat (R50). -/
def State.chanOf (s : State) (seat : Seat) : Option (Fin 12) :=
  allChans.find? fun c => (s.chan c).state ≠ .free ∧ (s.chan c).seat = some seat

/-- The channel that names a seat as successor (R50). -/
def State.successorChan (s : State) (seat : Seat) : Option (Fin 12) := allChans.find? fun c => (s.chan c).successor = some seat

/-- The seat's floor state, derived from the list and the floor table (R20). -/
def State.floorState (s : State) (seat : Seat) : FloorState :=
  match s.entryOf seat with
  | some e => match e.state with
    | .waiting => .waiting
    | .offered => .offered
  | none =>
    match s.chanOf seat with
    | some c => match (s.chan c).state with
      | .free => .idle
      | .offered => .offered
      | .opening => .opening
      | .opened => .opened
      | .held => .held
      | .closing => .closing
    | none => if (s.successorChan seat).isSome then .succeeding else .idle

/-! ### Room (R98, R99, R100, R104): `skip` is a channel left out of every count -/

/-- A channel that counts: not FREE and not left out. -/
def State.counts (s : State) (skip : Option (Fin 12)) (c : Fin 12) : Bool := (s.chan c).state ≠ .free && skip ≠ some c

/-- Channels in use. -/
def State.inUse (s : State) (skip : Option (Fin 12)) : Nat := allChans.countP fun c => s.counts skip c

/-- Delegate channels in use. -/
def State.delegatesInUse (s : State) (skip : Option (Fin 12)) : Nat :=
  allChans.countP fun c => s.counts skip c && (s.chan c).kind = some .delegate

/-- Channels whose seat resolves to a zone now; `none` is zone G (R15). -/
def State.zoneCount (s : State) (skip : Option (Fin 12)) (z : Option (Fin 8)) : Nat :=
  allChans.countP fun c => s.counts skip c && (match (s.chan c).seat with | some seat => s.zoneOf seat = z | none => false)

/-- The channel that holds a talk slot of a trunk (R54). -/
def State.slotHolder (s : State) (skip : Option (Fin 12)) (t : Fin 4) (k : Fin 6) : Option (Fin 12) :=
  allChans.find? fun c => s.counts skip c && (s.chan c).trunk = some t && (s.chan c).slot = some k

/-- The lowest-numbered free talk slot of a trunk (R53 step 2). -/
def State.freeSlot (s : State) (skip : Option (Fin 12)) (t : Fin 4) : Option (Fin 6) :=
  allSlots.find? fun k => (s.slotHolder skip t k).isNone

/-- The lowest-numbered FREE channel (R53 step 1). -/
def State.freeChan (s : State) : Option (Fin 12) := allChans.find? fun c => (s.chan c).state = .free

/-- Conditions 1 and 2 of R99: trunk and seat. -/
def State.seatConditions (s : State) (seat : Seat) : Bool :=
  (s.tpc seat.trunk).link = .up && !(s.tpc seat.trunk).censusRunning && (s.seatRec seat).availability = .present
    && (s.seatRec seat).enabled && s.kindOf seat ≠ .listener

/-- Condition 6 of R99: the seat's zone is below its cap, or has none. -/
def State.zoneRoom (s : State) (skip : Option (Fin 12)) (seat : Seat) : Bool :=
  match s.zoneOf seat with
  | none => true
  | some z => (vget s.stb.zones z).cap = 0 || s.zoneCount skip (some z) < (vget s.stb.zones z).cap

/-- Conditions 3 to 6 of R99: room; 5 and 6 for a delegate only. -/
def State.roomConditions (s : State) (skip : Option (Fin 12)) (seat : Seat) : Bool :=
  (s.freeSlot skip seat.trunk).isSome && s.inUse skip < s.mge.settings.floorLimit
    && (s.kindOf seat ≠ .delegate
      || (s.delegatesInUse skip < s.mge.settings.floorLimit - s.mge.settings.chairReserve && s.zoneRoom skip seat))

/-- Condition 7 of R99: a delegate is not below the hold level. -/
def State.holdCondition (s : State) (seat : Seat) : Bool := s.kindOf seat ≠ .delegate || s.far.holdLevel ≤ s.levelOf seat

/-- Eligibility with a channel left out: `skip = none` is R99. -/
def State.eligibleSkip (s : State) (skip : Option (Fin 12)) (seat : Seat) : Bool :=
  s.seatConditions seat && s.roomConditions skip seat && s.holdCondition seat

/-- A seat is eligible now (R99). -/
def State.eligible (s : State) (seat : Seat) : Bool := s.eligibleSkip none seat

/-- The successor named on a closing channel is still valid: the hold condition is not tested (R100). -/
def State.successorValid (s : State) (c : Fin 12) (seat : Seat) : Bool :=
  s.seatConditions seat && s.roomConditions (some c) seat

/-- The channel is below the hold level: a delegate of a lower copied level (R55). -/
def State.belowHold (s : State) (c : Fin 12) : Bool :=
  (s.chan c).kind = some .delegate && (match (s.chan c).level with | some l => decide (l < s.far.holdLevel) | none => false)

/-! ### Level windows and speaking totals (R143, R145, R146) -/

/-- A level window starts, provided the level monitor is on (R145). -/
def State.startWindow (c : Fin 12) (s : State) : State :=
  if s.mge.settings.levelMonitor then
    s.modSlm c fun m => { m with progress := some 0, exponent := some s.mge.settings.windowExponent, sum := 0 }
  else s

/-- The fields of an ended window (R146). -/
def SlmChan.noWindow (m : SlmChan) : SlmChan := { m with progress := none, exponent := none, sum := 0 }

/-- A level window is aborted (R146). -/
def State.abortWindow (c : Fin 12) (s : State) : State := s.modSlm c SlmChan.noWindow

/-- The channel's speaking clock is added to its seat's speaking total (R143). -/
def State.addClock (c : Fin 12) (s : State) : State :=
  match (s.chan c).seat with
  | some seat => s.modSeat seat fun r => { r with speakingTotal := satAdd 999999 r.speakingTotal (s.slmOf c).clock }
  | none => s

/-- The grants count of a channel's seat rises at its first OPEN (R6, R55, R59). -/
def State.countGrant (c : Fin 12) (s : State) : State :=
  match (s.chan c).seat with
  | some seat => s.modSeat seat fun r => { r with grants := satAdd 65535 r.grants 1 }
  | none => s

/-- Queue a notice that carries the channel's seat. -/
def State.notifyChan (c : Fin 12) (n : Seat → Notice) (s : State) : State :=
  match (s.chan c).seat with
  | some seat => s.notify (n seat)
  | none => s

/-! ### Freeing and closing (R60, R62, R63, R64) -/

/-- The clock CH_CLOSE carries: 0 for a channel freed from OFFERED or OPENING (R70). -/
def State.closingClock (s : State) (c : Fin 12) : Nat :=
  match (s.chan c).state with
  | .offered | .opening => 0
  | .free | .opened | .held | .closing => (s.slmOf c).clock

/-- Queue CH_CLOSE for the seat that leaves the channel (R70). -/
def State.notifyClose (c : Fin 12) (cause : CloseCause) (s : State) : State :=
  s.notifyChan c fun seat => .chClose c seat cause (s.closingClock c)

/-- The cause a freed channel records: its own while CLOSING, otherwise that of the event (R61). -/
def State.freeCause (s : State) (c : Fin 12) (cause : CloseCause) : CloseCause :=
  if (s.chan c).state = .closing then (s.chan c).closeCause.getD cause else cause

/-- The entry becomes FREE and leaves the open sequence (R63 step 5). -/
def State.clearChan (c : Fin 12) (s : State) : State :=
  (s.modChan c fun _ => Channel.reset).modFar fun f => { f with openSeq := f.openSeq.filter fun d => d ≠ c }

/-- A channel is freed: clock added, window aborted, CH_CLOSE, entry cleared, promotion triggered (R63). -/
def State.freeChannel (c : Fin 12) (cause : CloseCause) (s : State) : State :=
  match (s.chan c).state with
  | .free => s
  | .opened => ((((s.addClock c).abortWindow c).notifyClose c (s.freeCause c cause)).clearChan c).trigger
  | .held => (((s.addClock c).notifyClose c (s.freeCause c cause)).clearChan c).trigger
  | .offered | .opening | .closing => ((s.notifyClose c (s.freeCause c cause)).clearChan c).trigger

/-- SLM and FMX set up a channel at allocation or handover (R53 step 5, R135, R151). -/
def State.setUpAudio (c : Fin 12) (s : State) : State :=
  (s.modSlm c fun _ => SlmChan.reset).modFmx c fun m => { m with latest := 0, fresh := false }

/-- The muted flag of an OPEN placed for a seat now (R53). -/
def State.mutedFlag (s : State) (kind : ClassKind) (level : Fin 8) : Bool := kind = .delegate && level < s.far.holdLevel

/-- The talk slot a handover gives: the channel's own on the same trunk, else the lowest free one of the successor's trunk (R62). -/
def State.handoverSlot (s : State) (c : Fin 12) (seat : Seat) : Option (Fin 6) :=
  if (s.chan c).trunk = some seat.trunk then (s.chan c).slot else s.freeSlot none seat.trunk

/-- The entry filled for a seat whose OPEN is about to be placed (R53 steps 3 and 6, R62). -/
def State.openingEntry (s : State) (seat : Seat) (slot : Option (Fin 6)) (cause : OpeningCause) : Channel where
  state := .opening
  seat := some seat
  trunk := some seat.trunk
  slot := slot
  level := some (s.levelOf seat)
  kind := some (s.kindOf seat)
  cause := some cause
  mutedAtOpen := some (s.mutedFlag (s.kindOf seat) (s.levelOf seat))
  reachedOpen := some false
  successor := none
  closeCause := none

/-- The OPEN of a channel's entry: its slot and recorded muted flag (R53). -/
def Channel.openCmd (ch : Channel) : Cmd := .openMic (ch.slot.getD 0) (ch.mutedAtOpen.getD false)

/-- Another channel on which a seat is CLOSING (R64 row 8). -/
def State.closingElsewhere (s : State) (seat : Seat) (c : Fin 12) : Option (Fin 12) :=
  allChans.find? fun d => d ≠ c ∧ (s.chan d).state = .closing ∧ (s.chan d).seat = some seat

/-- A CLOSING channel is handed to a seat: CH_CLOSE for the seat leaving, then the entry filled in place (R62). -/
def State.handover (c : Fin 12) (seat : Seat) (s : State) : State :=
  ((s.notifyClose c (s.freeCause c .released)).modChan c fun _ => s.openingEntry seat (s.handoverSlot c seat) .succession).setUpAudio c

/-- The close of a CLOSING channel ends: handed to a valid successor, otherwise freed (R62). The OPEN placed at a handover may itself
replace an unsent CLOSE, which ends that close in turn (R64 row 8); the first argument bounds the chain by the number of channels
(log entry 18). -/
def State.endCloseN : Nat → Fin 12 → State → State
  | 0, _, s => s
  | n + 1, c, s =>
    match (s.chan c).successor with
    | none => s.freeChannel c .released
    | some seat =>
      if s.successorValid c seat then
        let s1 := s.handover c seat
        let (s2, report) := s1.placeReport seat (s1.chan c).openCmd
        if report = .closeReplaced then
          match s2.closingElsewhere seat c with
          | some d => endCloseN n d s2
          | none => s2
        else s2
      else s.freeChannel c .released

/-- The close of a CLOSING channel ends (R62). -/
def State.endClose (c : Fin 12) (s : State) : State := s.endCloseN 12 c

/-- Place the OPEN of an OPENING channel; an unsent CLOSE it replaces ends the old channel's close (R53, R64 row 8). -/
def State.placeOpen (c : Fin 12) (seat : Seat) (s : State) : State :=
  let (s1, report) := s.placeReport seat (s.chan c).openCmd
  if report = .closeReplaced then
    match s1.closingElsewhere seat c with
    | some d => s1.endClose d
    | none => s1
  else s1

/-- The unsent command of a seat is its OPEN. -/
def State.openUnsent (s : State) (seat : Seat) : Bool :=
  match s.unsent seat with
  | some (.openMic _ _) => true
  | some .close | some .mute | some .unmute | some .offer | some .withdraw | some .allOff | some .queued | some .refused | some .warn
  | some (.listState _) | some .probe | none => false

/-- The channel enters CLOSING with a cause and CLOSE is placed for its seat (R60). -/
def State.enterClosing (c : Fin 12) (cause : CloseCause) (s : State) : State :=
  let s1 := s.modChan c fun ch => { ch with state := .closing, closeCause := some cause }
  match (s.chan c).seat with
  | some seat => s1.place seat .close
  | none => s1

/-! ### The request list (R74 to R78) -/

/-- Remove a seat's entry with a cause: LIST_REMOVE, and REFUSED for a WAITING entry cancelled, cleared or ended by the sitting (R78). -/
def State.listRemove (seat : Seat) (cause : RemovalCause) (s : State) : State :=
  match s.entryOf seat, s.listIndex seat with
  | some e, some i =>
    let s1 := s.modFar fun f => { f with list := f.list.eraseIdx i }
    let s2 := s1.notify (.listRemove seat cause i s1.far.list.length)
    if e.state = .waiting ∧ (cause = .cancelled ∨ cause = .cleared ∨ cause = .sitting) then s2.place seat .refused else s2
  | _, _ => s

/-- End an offer: entry removed, WITHDRAW placed where the cause asks for it, channel freed (R78, R84, R87, R89, R90). -/
def State.endOffer (seat : Seat) (removal : RemovalCause) (cause : CloseCause) (withdraw : Bool) (s : State) : State :=
  let s1 := s.listRemove seat removal
  let s2 := if withdraw then s1.place seat .withdraw else s1
  match s2.chanOf seat with
  | some c => s2.freeChannel c cause
  | none => s2

/-- A close request on a channel, by its state (R60). An OFFERED channel has its offer ended with cause CANCELLED (R89). -/
def State.closeRequest (c : Fin 12) (cause : CloseCause) (s : State) : State :=
  match (s.chan c).state with
  | .free | .closing => s
  | .offered =>
    match (s.chan c).seat with
    | some seat => s.endOffer seat .cancelled cause true
    | none => s.freeChannel c cause
  | .opening =>
    match (s.chan c).seat with
    | some seat => if s.openUnsent seat then (s.place seat .close).freeChannel c cause else s.enterClosing c cause
    | none => s.enterClosing c cause
  | .opened => ((s.enterClosing c cause).abortWindow c).addClock c
  | .held => (s.enterClosing c cause).addClock c

/-- End a succession: the successor field becomes absent (R106). -/
def State.dropSuccession (seat : Seat) (s : State) : State :=
  match s.successorChan seat with
  | some c => s.modChan c fun ch => { ch with successor := none }
  | none => s

/-- Where an entry made by a press or by chair bypass goes (R75). -/
def insertionIndex (d : Discipline) (kind : ClassKind) (level : Fin 8) (group : Group) (l : List Entry) : Nat :=
  match kind with
  | .chair => l.findIdx fun e => e.kind = .delegate
  | .delegate | .listener =>
    match d, group with
    | .arrival, _ => l.length
    | .grouped, .high => l.findIdx fun e => e.kind = .delegate ∧ e.group = .low
    | .grouped, .low => l.length
    | .level, _ => l.findIdx fun e => e.kind = .delegate ∧ e.level < level

/-- Put an entry for a seat at an index: QUEUED, LIST_ADD, and a promotion trigger in DIRECT and AUTO modes (R74 steps 2 to 6). -/
def State.insertAt (seat : Seat) (origin : Origin) (index : Nat) (s : State) : State :=
  let e : Entry := ⟨seat, s.kindOf seat, s.levelOf seat, (s.classOf seat).group, origin, .waiting, none, none⟩
  let s1 := s.modFar fun f => { f with list := f.list.take index ++ e :: f.list.drop index }
  let s2 := (s1.place seat .queued).notify (.listAdd seat index origin s1.far.list.length)
  if s.mge.settings.mode = .list then s2 else s2.trigger

/-- Insertion by a press or by chair bypass; a full list refuses it (R74, R75, R76). -/
def State.insertRequest (seat : Seat) (origin : Origin) (s : State) : State :=
  if Config.listCapacity ≤ s.far.list.length then
    ((s.place seat .refused).modMge fun m => { m with refused := satAdd 65535 m.refused 1 }).setFlag .queueFull
  else
    s.insertAt seat origin
      (insertionIndex s.mge.settings.discipline (s.kindOf seat) (s.levelOf seat) (s.classOf seat).group s.far.list)

/-! ### Allocation and offers (R53, R82, R86) -/

/-- FAR allocates a channel and places OPEN for the seat (R53). Nothing happens without a FREE channel and a free slot, which every
caller has tested. -/
def State.allocate (seat : Seat) (cause : OpeningCause) (s : State) : State :=
  match s.freeChan, s.freeSlot none seat.trunk with
  | some c, some k =>
    let s1 := (s.modChan c fun _ => s.openingEntry seat (some k) cause).modFar fun f => { f with openSeq := f.openSeq ++ [c] }
    (s1.setUpAudio c).placeOpen c seat
  | _, _ => s

/-- Change a seat's list entry. -/
def State.modEntry (seat : Seat) (f : Entry → Entry) (s : State) : State :=
  s.modFar fun a => { a with list := a.list.map fun e => if e.seat = seat then f e else e }

/-- An offer is made to a waiting seat: channel reserved, entry OFFERED with the confirm window, OFFER placed, notice OFFER (R53, R82). -/
def State.makeOffer (seat : Seat) (s : State) : State :=
  match s.freeChan, s.freeSlot none seat.trunk with
  | some c, some k =>
    let ch : Channel := { s.openingEntry seat (some k) .promoted with state := .offered, mutedAtOpen := none }
    let s1 := (s.modChan c fun _ => ch).modFar fun f => { f with openSeq := f.openSeq ++ [c] }
    let s2 := (s1.setUpAudio c).modEntry seat fun e =>
      { e with state := .offered, window := some s.mge.settings.confirmWindow, deadline := none }
    (s2.place seat .offer).notify (.offer seat c (some k) s.mge.settings.confirmWindow)
  | _, _ => s

/-- An accepted confirm: entry removed with cause OPENED, channel OPENING, OPEN placed with the muted flag as of now (R86). -/
def State.acceptOffer (seat : Seat) (s : State) : State :=
  let s1 := s.listRemove seat .opened
  match s1.chanOf seat with
  | some c =>
    let s2 := s1.modChan c fun ch => { ch with state := .opening, mutedAtOpen := some (s1.belowHold c) }
    s2.placeOpen c seat
  | none => s1

/-! ### Promotion (R109 to R111) -/

/-- A WAITING entry is promoted by the confirm setting in force (R110). -/
def State.promote (seat : Seat) (s : State) : State :=
  if s.mge.settings.confirm then s.makeOffer seat else (s.allocate seat .promoted).listRemove seat .opened

/-- An entry promotion may take now: WAITING, its seat eligible (R110). -/
def State.promotable (s : State) (seat : Seat) : Bool :=
  match s.entryOf seat with
  | some e => e.state = .waiting && s.eligible seat
  | none => false

/-- One entry of the promotion scan. -/
def State.promoteIf (s : State) (seat : Seat) : State := if s.promotable seat then s.promote seat else s

/-- A promotion run: one pass over the list from the head; in LIST mode nothing (R109, R110). -/
def State.runPromotion (s : State) : State :=
  if s.mge.settings.mode = .list then s else (s.far.list.map Entry.seat).foldl State.promoteIf s

/-- The end of a handling: outside a batch, one promotion run when a trigger was made; inside, the mark stays set (R109). -/
def State.settle (s : State) : State :=
  if s.mge.batch.isNone ∧ s.far.promotionDeferred then (s.modFar fun f => { f with promotionDeferred := false }).runPromotion else s

/-- A batch ends: the scope closes and one promotion runs if the mark is set (R109, R172). -/
def State.endBatch (s : State) : State := (s.modMge fun m => { m with batch := none }).settle

/-- The entry NEXT takes: the first WAITING entry whose seat is eligible now (R111). -/
def State.nextPromotable (s : State) : Option Seat := (s.far.list.map Entry.seat).find? fun seat => s.promotable seat

/-! ### Replacement (R104, R105) -/

/-- A channel is a replacement candidate for a requester (R104). -/
def State.isCandidate (s : State) (seat : Seat) (c : Fin 12) : Bool :=
  ((s.chan c).state = .opened || (s.chan c).state = .held) && (s.chan c).kind = some .delegate
    && (match (s.chan c).seat with | some other => (s.classOf other).replaceable | none => false)
    && (s.kindOf seat ≠ .delegate || (match (s.chan c).level with | some l => decide (l ≤ s.levelOf seat) | none => false))
    && s.eligibleSkip (some c) seat

/-- The oldest candidate (R104). -/
def State.candidate (s : State) (seat : Seat) : Option (Fin 12) := s.far.openSeq.find? fun c => s.isCandidate seat c

/-- The replacement: a close request with cause REPLACED, and the requester named as successor (R105). -/
def State.replaceChan (c : Fin 12) (seat : Seat) (s : State) : State :=
  (s.closeRequest c .replaced).modChan c fun ch => { ch with successor := some seat }

end Sys2Proof.Machine
end

