-- ==== Sys2Proof/Machine/Hold.lean ====
section
/-! DEFINITION. The priority hold (R117-R123), list control (R125-R133), and the clearing of seats from the floor (R4). -/

namespace Sys2Proof.Machine

/-! ### The hold set and level (R117, R123) -/

/-- The highest class level, read now, among members; 0 when there is none (R117). -/
def State.levelOfMembers (s : State) (members : List Seat) : Fin 8 :=
  members.foldl (fun l seat => if l < s.levelOf seat then s.levelOf seat else l) 0

/-- Recompute the hold level (R117). -/
def State.recomputeHold (s : State) : State := s.modFar fun f => { f with holdLevel := s.levelOfMembers f.holdSet }

/-- Queue notice HOLD (R123). -/
def State.notifyHold (seat : Option Seat) (change : HoldChange) (s : State) : State :=
  s.notify (.hold seat change s.far.holdLevel s.far.holdSet.length)

/-- Insert into a list of seats kept in ascending seat-code order. -/
def seatInsert (seat : Seat) : List Seat → List Seat
  | [] => [seat]
  | x :: l => if seatCode seat < seatCode x then seat :: x :: l else x :: seatInsert seat l

/-- A seat joins the hold set (R118 step 1). -/
def State.joinHold (seat : Seat) (s : State) : State :=
  ((s.modFar fun f => { f with holdSet := seatInsert seat f.holdSet }).recomputeHold).notifyHold (some seat) .joined

/-- A seat leaves the hold set if it is in it (R120 step 1, R122). -/
def State.leaveHold (seat : Seat) (s : State) : State :=
  if seat ∈ s.far.holdSet then
    ((s.modFar fun f => { f with holdSet := f.holdSet.filter fun x => x ≠ seat }).recomputeHold).notifyHold (some seat) .left
  else s

/-- An UNMUTE for the seat is unsent or in flight. -/
def State.unmutePending (s : State) (seat : Seat) : Bool := s.unsent seat = some .unmute || s.inFlightFor seat = some .unmute

/-- An OPEN channel goes to HELD: MUTE placed, level window aborted, clock paused, notice CH_HELD (R59). -/
def State.holdChannel (c : Fin 12) (s : State) : State :=
  let s1 := s.modChan c fun ch => { ch with state := .held }
  let s2 := match (s.chan c).seat with
    | some seat => s1.place seat .mute
    | none => s1
  (s2.abortWindow c).notifyChan c fun seat => .chHeld c seat

/-- A rising hold level meets one channel (R119). -/
def State.riseAt (s : State) (c : Fin 12) : State :=
  if s.belowHold c then
    match (s.chan c).state with
    | .opened =>
      match s.mge.settings.priorityAction with
      | .mute => s.holdChannel c
      | .close => s.closeRequest c .priority
    | .held =>
      match (s.chan c).seat with
      | some seat => if s.unmutePending seat then s.place seat .mute else s
      | none => s
    | .free | .offered | .opening | .closing => s
  else s

/-- The hold level has risen (R119). -/
def State.rise (s : State) : State := allChans.foldl State.riseAt s

/-- A HELD channel enters OPEN: level window started, clock resumes, CH_RESUMED, and the first OPEN counts a grant (R59, R121). -/
def State.resume (c : Fin 12) (s : State) : State :=
  let s1 := (s.modChan c fun ch => { ch with state := .opened, reachedOpen := some true }).startWindow c
  let s2 := s1.notifyChan c fun seat => .chResumed c seat
  if (s.chan c).reachedOpen = some false then s2.countGrant c else s2

/-- Place UNMUTE for a HELD channel; an unsent MUTE it drops brings the channel back at once unless an UNMUTE is in flight (R121). -/
def State.placeUnmute (c : Fin 12) (seat : Seat) (s : State) : State :=
  let (s1, report) := s.placeReport seat .unmute
  if report = .muteDropped ∧ s1.inFlightFor seat ≠ some .unmute then s1.resume c else s1

/-- A fallen hold level meets one channel (R121). -/
def State.fallAt (s : State) (c : Fin 12) : State :=
  match (s.chan c).state, (s.chan c).seat with
  | .held, some seat =>
    if s.belowHold c ∨ s.unsent seat = some .unmute ∨ (s.inFlightFor seat = some .unmute ∧ s.unsent seat ≠ some .mute) then s
    else s.placeUnmute c seat
  | _, _ => s

/-- The hold level has fallen: a promotion trigger (R121). -/
def State.fall (s : State) : State := (allChans.foldl State.fallAt s).trigger

/-- The one rise or fall of a handling, against the level before it (R117, R122). -/
def State.holdChanged (before : Fin 8) (s : State) : State :=
  if before < s.far.holdLevel then s.rise else if s.far.holdLevel < before then s.fall else s

/-- A member's class level may have changed: recompute, and queue HOLD when the level changed (R11, R117, R123). -/
def State.levelChanged (s : State) : State :=
  if s.recomputeHold.far.holdLevel = s.far.holdLevel then s else s.recomputeHold.notifyHold none .level

/-! ### List control (R125, R132, R133) -/

/-- Queue notice LIST_CONTROL. -/
def State.notifyList (s : State) : State := s.notify (.listControl s.far.claimed s.far.holder s.far.forceReturn)

/-- A holder is cleared: LIST_CONTROL, and LIST_STATE (not holding) (R128, R132). -/
def State.clearHolder (seat : Seat) (s : State) : State :=
  if s.far.holder = some seat then
    ((s.modFar fun f => { f with holder := none }).notifyList).place seat (.listState false)
  else s

/-- The list-control fallback (R133). -/
def State.fallback (s : State) : State :=
  if s.far.claimed ∨ s.far.forceReturn then (s.modFar fun f => { f with claimed := false, forceReturn := false }).notifyList else s

/-! ### Clearing seats from the floor (R4) -/

/-- Floor clearing of a lost seat, but for the fall of the hold level (R4). -/
def State.clearLost (s : State) (seat : Seat) : State :=
  let s1 := match s.floorState seat, s.chanOf seat with
    | .idle, _ => s
    | .waiting, _ => s.listRemove seat .lost
    | .offered, _ => s.endOffer seat .lost .unreachable false
    | .opening, some c | .opened, some c | .held, some c => s.freeChannel c .unreachable
    | .closing, some c => s.endClose c
    | .opening, none | .opened, none | .held, none | .closing, none => s
    | .succeeding, _ => s.dropSuccession seat
  (s1.leaveHold seat).clearHolder seat

/-- Floor clearing of a barred seat, but for the fall of the hold level (R4). -/
def State.clearBarred (s : State) (seat : Seat) : State :=
  let s1 := match s.floorState seat, s.chanOf seat with
    | .idle, _ => s
    | .waiting, _ => s.listRemove seat .disabled
    | .offered, _ => s.endOffer seat .disabled .disabled true
    | .opening, some c | .opened, some c | .held, some c => s.closeRequest c .disabled
    | .closing, _ => s
    | .opening, none | .opened, none | .held, none => s
    | .succeeding, _ => s.dropSuccession seat
  (s1.leaveHold seat).clearHolder seat

/-- A chair whose class becomes DELEGATE kind leaves the hold set and list control (R12, R19). -/
def State.clearChair (s : State) (seat : Seat) : State := (s.leaveHold seat).clearHolder seat

/-- A single lost seat is cleared, with the fall its removal brings (R4, R122). -/
def State.loseSeat (seat : Seat) (s : State) : State := (s.clearLost seat).holdChanged s.far.holdLevel

end Sys2Proof.Machine
end

