-- ==== Sys2Proof/WellFormed.lean ====
section
/-! DEFINITION. Which commands the interface can carry: a received frame has the length of its layout (R194, 11.3), and an unknown
record is of a kind that table 11.5 does not list. -/

namespace Sys2Proof

/-- Bytes of a downstream hall frame (11.3). -/
def hallFrameLength : Nat := 8

/-- Bytes of an upstream trunk frame (R194). -/
def trunkFrameLength : Nat := 24

/-- A command the interface can carry. -/
def Instr.wellFormed : Instr → Bool
  | .hallFrameValid f | .hallFrameInvalid f | .hallLinkUp f => f.length == hallFrameLength
  | .trunkFrameGood _ f | .trunkFrameMalformed _ f | .trunkUp _ f => f.length == trunkFrameLength
  | .unknownRecord kind => (recordLength kind).isNone
  | .powerOnReset | .brownoutReset | .pinReset | .startUpHoldEnd | .hallFrameMissing | .hallLinkLost | .hallAlignFail | .hallFrameSend
  | .mixComputation | .decisecondExpiry | .secondExpiry | .speakWarning _ | .speakExpiry _ | .offerLapse _ | .silenceTimerExpiry
  | .trunkFrameMissing _ | .trunkTrainingFail _ | .trunkLinkLost _ | .trunkFrameSend _ | .hello _ _ _ _ | .micPress _ _ _ _
  | .confirm _ _ _ _ | .priorityDown _ _ _ _ | .priorityUp _ _ _ _ | .chairNext _ _ _ _ | .chairClear _ _ _ _ | .takeList _ _ _ _
  | .giveList _ _ _ _ | .openComplete _ _ | .muteComplete _ _ | .unmuteComplete _ _ | .closeComplete _ _ | .offerComplete _ _
  | .indicationComplete _ _ | .probeAnswered _ _ _ | .commandAttemptFailed _ | .levelWindowComplete _ _ | .silenceRelease _
  | .loadSeat _ | .readSeat _ | .setClass _ | .readClass _ | .setZone _ | .readZone _ | .census _ | .abortCensus _ | .holdTrunk _
  | .releaseTrunk _ | .readTrunk _ | .close _ | .closeAll | .readChannels | .insertRequest _ _ | .cancelRequest _ | .clearList
  | .readList _ _ | .next | .grant _ | .claimList | .yieldList | .forceList _ | .readMix | .batch _ | .setNotices _ | .setFloor _
  | .readSettings | .openSitting | .closeSitting | .readStatus | .clearStatus _ | .setReport _ | .resetEngine | .readIdent
  | .withdrawComplete _ _ => true

end Sys2Proof
end

