-- ==== Sys2Proof/Machine/Layout.lean ====
section
/-! DEFINITION. Byte layouts of frames, packets, replies and notices, and the two checks (chapter 11). -/

namespace Sys2Proof.Machine

/-! ### Checks (R195) -/

/-- One bit of the frame check: polynomial x^8 + x^2 + x + 1. -/
def crc8Bit (c : BitVec 8) : BitVec 8 := if c.getLsbD 7 then (c <<< 1) ^^^ 0x07 else c <<< 1

/-- One byte of the frame check, bit 7 first. -/
def crc8Byte (c : BitVec 8) (b : Byte) : BitVec 8 :=
  crc8Bit (crc8Bit (crc8Bit (crc8Bit (crc8Bit (crc8Bit (crc8Bit (crc8Bit (c ^^^ b))))))))

/-- The frame check: initial value 0, no reflection. -/
def crc8 (bytes : List Byte) : BitVec 8 := bytes.foldl crc8Byte 0

/-- One bit of the packet CRC: polynomial x^16 + x^12 + x^5 + 1. -/
def crc16Bit (c : BitVec 16) : BitVec 16 := if c.getLsbD 15 then (c <<< 1) ^^^ 0x1021 else c <<< 1

/-- One byte of the packet CRC, bit 7 first. -/
def crc16Byte (c : BitVec 16) (b : Byte) : BitVec 16 :=
  crc16Bit (crc16Bit (crc16Bit (crc16Bit (crc16Bit (crc16Bit (crc16Bit (crc16Bit (c ^^^ (b ++ (0 : BitVec 8))))))))))

/-- The packet CRC: initial value 0xFFFF, no reflection, no final inversion. -/
def crc16 (bytes : List Byte) : BitVec 16 := bytes.foldl crc16Byte 0xFFFF

/-- Bytes followed by their packet CRC, most significant byte first. -/
def withCrc (bytes : List Byte) : List Byte := bytes ++ halfBytes (crc16 bytes)

/-! ### Fields (R193) -/

/-- A one-byte number. -/
def u8 (n : Nat) : List Byte := [BitVec.ofNat 8 n]

/-- A two-byte number. -/
def u16 (n : Nat) : List Byte := halfBytes (BitVec.ofNat 16 n)

/-- A three-byte number. -/
def u24 (n : Nat) : List Byte := BitVec.ofNat 8 (n / 65536) :: u16 n

/-- A signed byte. -/
def s8 (x : Int) : List Byte := [BitVec.ofInt 8 x]

/-- A signed two-byte number. -/
def s16 (x : Int) : List Byte := halfBytes (BitVec.ofInt 16 x)

/-- On/off, yes/no. -/
def flagByte (b : Bool) : List Byte := if b then [1] else [0]

/-- An optional one-byte field. -/
def optU8 (o : Option Nat) : List Byte :=
  match o with
  | some n => u8 n
  | none => [0xFF]

/-- An optional signed one-byte field. -/
def optS8 (o : Option Int) : List Byte :=
  match o with
  | some x => s8 x
  | none => [0x80]

/-- An optional two-byte field. -/
def optU16 (o : Option Nat) : List Byte :=
  match o with
  | some n => u16 n
  | none => [0xFF, 0xFF]

/-- A seat field: the code, 0 when absent. -/
def seatField (o : Option Seat) : List Byte :=
  match o with
  | some seat => u16 (seatCode seat)
  | none => u16 0

/-! ### Upstream trunk frames (R194) -/

/-- An event field of an upstream trunk frame. -/
structure UpEvent where
  position : Fin 128
  kind : Fin 16
  serial : Fin 16
  arg : Byte
  deriving DecidableEq, Repr

/-- The acknowledgement field of an upstream trunk frame. -/
structure UpAck where
  position : Fin 128
  result : AckResult
  data : Byte
  deriving DecidableEq, Repr

/-- Bits 6-0 of a byte. -/
def positionBits (b : Byte) : Fin 128 := ⟨b.toNat % 128, Nat.mod_lt _ (by decide)⟩

/-- Bits 7-4 of a byte. -/
def highNibble (b : Byte) : Fin 16 := ⟨b.toNat / 16, by have := b.isLt; omega⟩

/-- Bits 3-0 of a byte. -/
def lowNibble (b : Byte) : Fin 16 := ⟨b.toNat % 16, Nat.mod_lt _ (by decide)⟩

/-- The event at byte `i`; `none` when its valid bit is clear. -/
def upEventAt (f : List Byte) (i : Nat) : Option UpEvent :=
  if (byteAt f i).getLsbD 7 then
    some ⟨positionBits (byteAt f i), highNibble (byteAt f (i + 1)), lowNibble (byteAt f (i + 1)), byteAt f (i + 2)⟩
  else none

/-- The acknowledgement; `none` when its valid bit is clear. -/
def upAck (f : List Byte) : Option UpAck :=
  if (byteAt f 8).getLsbD 7 then
    some ⟨positionBits (byteAt f 8), if (byteAt f 9).getLsbD 7 then .rejected else .done, byteAt f 9 &&& 0x7F⟩
  else none

/-- A talk slot of an upstream trunk frame; `none` when marked empty. -/
def upSlot (f : List Byte) (k : Fin 6) : Option (BitVec 16) :=
  if (byteAt f 10).getLsbD k.val then some (halfAt f (11 + 2 * k.val)) else none

/-- The number of the downstream frame answered. -/
def upAnswered (f : List Byte) : Byte := byteAt f 1

/-- Layout checks of an upstream trunk frame (R195). -/
def trunkLayoutOk (f : List Byte) : Bool :=
  f.length == trunkFrameLength && byteAt f 0 == 0x5A && byteAt f 23 == crc8 ((f.drop 1).take 22)

/-! ### Downstream trunk frames (R194) -/

/-- An echo field: bit 15 valid, bits 14-8 position, bits 7-4 serial. An empty field, whose valid bit is clear, is sent with every other bit 0, of
which R194 says nothing (DESIGN CHOICE, log entry 37). -/
def echoField (o : Option Echo) : List Byte :=
  match o with
  | some e => [BitVec.ofNat 8 (128 + posNumber e.pos), BitVec.ofNat 8 (e.serial.val * 16)]
  | none => [0, 0]

/-- The argument byte of a command. -/
def Cmd.argByte : Cmd → Byte
  | .openMic slot muted => BitVec.ofNat 8 (slot.val + if muted then 8 else 0)
  | .listState holding => if holding then 1 else 0
  | .close | .mute | .unmute | .offer | .withdraw | .allOff | .queued | .refused | .warn | .probe => 0

/-- The command field: position byte (0 for ALL_OFF), code and argument. An empty field, whose valid bit is clear, is sent with every other bit 0,
of which R194 says nothing (DESIGN CHOICE, log entry 37). -/
def commandField (o : Option (Option (Fin 120) × Cmd)) : List Byte :=
  match o with
  | some (target, cmd) =>
    [BitVec.ofNat 8 (128 + match target with | some p => posNumber p | none => 0), BitVec.ofNat 8 cmd.code, cmd.argByte]
  | none => [0, 0, 0]

/-- A downstream trunk frame, 12 bytes. -/
def trunkFrame (number : Byte) (echoes : List Echo) (cmd : Option (Option (Fin 120) × Cmd)) (sample : Int) : List Byte :=
  let body := number :: (echoField echoes[0]? ++ echoField echoes[1]? ++ commandField cmd ++ s16 sample)
  0xA5 :: (body ++ [crc8 body])

/-! ### Hall frames (11.3) -/

/-- Lane byte count of a downstream hall frame. -/
def laneCount (f : List Byte) : Nat := (byteAt f 2).toNat % 8

/-- Packet-start mark of a downstream hall frame. -/
def packetStart (f : List Byte) : Bool := (byteAt f 2).getLsbD 7

/-- The valid lane bytes of a downstream hall frame. -/
def laneBytes (f : List Byte) : List Byte := (f.drop 3).take (laneCount f)

/-- A downstream hall frame is valid: layout checks and a lane byte count of 0-4 (R165). -/
def hallFrameOk (f : List Byte) : Bool :=
  f.length == hallFrameLength && byteAt f 0 == 0xC3 && byteAt f 7 == crc8 ((f.drop 1).take 6) && decide (laneCount f ≤ 4)

/-- An upstream hall frame, 34 bytes; lane bytes past the count are 0. -/
def hallFrame (number : Byte) (attention attended start : Bool) (lane : List Byte) (samples : List Int) (mix : Int) : List Byte :=
  let control := (if attention then 128 else 0) + (if attended then 64 else 0) + (if start then 32 else 0) + lane.length
  let body := number :: BitVec.ofNat 8 control :: (lane ++ List.replicate (4 - lane.length) 0 ++ samples.flatMap s16 ++ s16 mix)
  0x3C :: (body ++ [crc8 body])

/-! ### Control packets (R168, R196) -/

/-- Announced length of a packet. -/
def packetLength (p : List Byte) : Nat := (halfAt p 0).toNat

/-- The CRC a control packet carries matches the CRC computed over it (R168 step 1). -/
def packetCrcOk (p : List Byte) : Bool := halfAt p (p.length - 2) == crc16 (p.take (p.length - 2))

/-- Split bytes into exactly so many records by their length bytes; `none` when they do not fill them (R168 step 3). -/
def splitRecords : Nat → List Byte → Option (List (List Byte))
  | 0, [] => some []
  | 0, _ :: _ => none
  | n + 1, bytes =>
    if 2 ≤ (byteAt bytes 1).toNat ∧ (byteAt bytes 1).toNat ≤ bytes.length then
      (splitRecords n (bytes.drop (byteAt bytes 1).toNat)).map fun rs => bytes.take (byteAt bytes 1).toNat :: rs
    else none

/-- The records of a control packet of consistent structure (R168 step 3). -/
def packetRecords (p : List Byte) : Option (List (List Byte)) :=
  if 1 ≤ (byteAt p 3).toNat ∧ (byteAt p 3).toNat ≤ 8 then splitRecords (byteAt p 3).toNat ((p.take (p.length - 2)).drop 4) else none

/-! ### Reply and notice packets (R196) -/

/-- A reply record: kind, status, two-byte record length, result fields. -/
def replyRecordBytes (r : ReplyRecord) : List Byte := r.kind :: (u8 r.status.code ++ u16 (4 + r.fields.length) ++ r.fields)

/-- A packet: its length, its content, its CRC. -/
def packet (content : List Byte) : List Byte := withCrc (u16 (content.length + 4) ++ content)

/-- The reply packet of a place. -/
def replyPacket (p : Place) : List Byte :=
  packet (0x01 :: p.seq :: (flagByte p.malformed ++ u8 p.answered.length ++ p.answered.flatMap replyRecordBytes))

/-- The fields of a notice, in the order of its table (R3, R24, R41, R70, R91, R123, R125, R150). -/
def Notice.fields : Notice → List Byte
  | .chOpen c who slot cause entered =>
    u8 c ++ seatField who ++ optU8 (slot.map Fin.val) ++ optU8 (cause.map OpeningCause.code) ++ u8 entered.code
  | .chHeld c who | .chResumed c who => u8 c ++ seatField who
  | .chClose c who cause clock => u8 c ++ seatField who ++ u8 cause.code ++ u24 clock
  | .listAdd who index origin length => seatField who ++ u8 index ++ u8 origin.code ++ u8 length
  | .listRemove who cause index length => seatField who ++ u8 cause.code ++ u8 index ++ u8 length
  | .offer who c slot window => seatField who ++ u8 c ++ optU8 (slot.map Fin.val) ++ u16 window
  | .warn c who clock allowance lead => u8 c ++ seatField who ++ u24 clock ++ u16 allowance ++ u16 lead
  | .expired c who clock allowance action => u8 c ++ seatField who ++ u24 clock ++ u16 allowance ++ u8 action.code
  | .seat who availability => seatField who ++ u8 availability.code
  | .trunk t link => u8 t ++ u8 link.code
  | .census t outcome present => u8 t ++ u8 outcome.code ++ u8 present
  | .hold who change level members => seatField who ++ u8 change.code ++ u8 level ++ u8 members
  | .listControl claimed holder forceReturn => flagByte claimed ++ seatField holder ++ flagByte forceReturn

/-- A notice record: kind, record length, fields. -/
def noticeRecordBytes (n : Notice) : List Byte := u8 n.code ++ u8 (2 + n.fields.length) ++ n.fields

/-- A notice packet. -/
def noticePacket (ns : List Notice) : List Byte := packet (0x02 :: (u8 ns.length ++ ns.flatMap noticeRecordBytes))

end Sys2Proof.Machine
end

