-- ==== Sys2Proof/Machine/Speaking.lean ====
section
/-! DEFINITION. The speaking clock, warning and expiry; offer deadlines; level windows and silence release (chapter 7, R84). -/

namespace Sys2Proof.Machine

/-! ### Comparisons (R138 to R141) -/

/-- The allowance of a seat now (R138). -/
def State.allowanceOf (s : State) (seat : Seat) : Nat := (s.seatRec seat).override.getD (s.classOf seat).allowance

/-- The warning test (R140). -/
def State.warnDue (s : State) (c : Fin 12) (seat : Seat) : Bool :=
  s.allowanceOf seat ≠ 0 && s.mge.settings.warnLead ≠ 0 && !(s.slmOf c).warned
    && decide ((s.allowanceOf seat - s.mge.settings.warnLead) * 10 ≤ (s.slmOf c).clock)

/-- The warning: mark, WARN placed, notice WARN (R140). -/
def State.warnStep (c : Fin 12) (s : State) : State :=
  match (s.chan c).state, (s.chan c).seat with
  | .opened, some seat =>
    if s.warnDue c seat then
      ((s.modSlm c fun m => { m with warned := true }).place seat .warn).notify
        (.warn c seat (s.slmOf c).clock (s.allowanceOf seat) s.mge.settings.warnLead)
    else s
  | _, _ => s

/-- The expiry test (R141). -/
def State.expiryDue (s : State) (c : Fin 12) (seat : Seat) : Bool :=
  s.allowanceOf seat ≠ 0 && decide (s.allowanceOf seat * 10 ≤ (s.slmOf c).clock)

/-- The expiry: overrun mark, SPEAK_EXPIRED and EXPIRED once, and the close under action CLOSE (R141). -/
def State.expireStep (c : Fin 12) (s : State) : State :=
  match (s.chan c).state, (s.chan c).seat with
  | .opened, some seat =>
    if s.expiryDue c seat then
      let action := (s.classOf seat).action
      let s1 :=
        if (s.slmOf c).overrun then s
        else (State.setFlag .speakExpired (s.modSlm c fun m => { m with overrun := true })).notify
          (.expired c seat (s.slmOf c).clock (s.allowanceOf seat) action)
      match action with
      | .notify => s1
      | .close => s1.closeRequest c .time
    else s
  | _, _ => s

/-- A comparison of an OPEN channel: the warning test, then the expiry test (R139). -/
def State.comparison (c : Fin 12) (s : State) : State := (s.warnStep c).expireStep c

/-- A decisecond expiry at one channel: an OPEN channel's clock advances and is compared (R136, R137). -/
def State.tickClock (s : State) (c : Fin 12) : State :=
  if (s.chan c).state = .opened then (s.modSlm c fun m => { m with clock := satAdd 999999 m.clock 1 }).comparison c else s

/-! ### Offer deadlines (R84) -/

/-- An offer lapses (R84). -/
def State.lapse (s : State) (seat : Seat) : State :=
  ((s.modMge fun m => { m with lapsed := satAdd 65535 m.lapsed 1 }).setFlag .offerLapsed).endOffer seat .lapsed .time true

/-- Every present confirm deadline is lowered by 1. -/
def lowerDeadlines (l : List Entry) : List Entry := l.map fun e => { e with deadline := e.deadline.map fun d => d - 1 }

/-- The seats whose deadline has come to 0, in list order. -/
def lapsedSeats (l : List Entry) : List Seat := (l.filter fun e => e.deadline = some 0).map Entry.seat

/-- FAR's part of a decisecond expiry: deadlines lowered, then the lapses in list order (R84, R136). -/
def State.deadlines (s : State) : State :=
  (lapsedSeats (lowerDeadlines s.far.list)).foldl State.lapse (s.modFar fun f => { f with list := lowerDeadlines f.list })

/-! ### The silence timer (R177) -/

/-- The engine becomes UNATTENDED if it was ATTENDED: timer stopped, FALLBACK, list-control fallback (R177). -/
def State.unattend (s : State) : State :=
  if s.hli.attended then ((s.modHli fun h => { h with attended := false, silenceTimer := none }).setFlag .fallback).fallback else s

/-- The silence timer stands at or past a nonzero limit (R177). -/
def State.silenceDue (s : State) : Bool :=
  match s.hli.silenceTimer with
  | some n => s.mge.settings.silenceLimit ≠ 0 && decide (s.mge.settings.silenceLimit ≤ n)
  | none => false

/-- The silence timer counts a second and is compared (R177). -/
def State.silenceTick (s : State) : State :=
  let s1 := s.modHli fun h => { h with silenceTimer := h.silenceTimer.map fun n => satAdd 255 n 1 }
  if s1.silenceDue then s1.unattend else s1

/-! ### The time base (R136) -/

/-- A second expiry. -/
def State.secondExpiry (s : State) : State := (s.modMge fun m => { m with secondPhase := 0 }).silenceTick

/-- A decisecond expiry: clocks and comparisons ascending, deadlines, promotion, and the tenth brings the second expiry (R136, R109;
log entries 9 and 10). -/
def State.decisecondExpiry (s : State) : State :=
  let s1 := ((allChans.foldl State.tickClock (s.modMge fun m => { m with decisecondPhase := 0 })).deadlines).settle
  if 10 ≤ s1.mge.secondPhase + 1 then s1.secondExpiry else s1.modMge fun m => { m with secondPhase := m.secondPhase + 1 }

/-- A hall frame time passes on the time base; the 1,600th brings the decisecond expiry (R136; log entry 9). -/
def State.frameTick (s : State) : State :=
  if Config.framesPerDecisecond ≤ s.mge.decisecondPhase + 1 then s.decisecondExpiry
  else s.modMge fun m => { m with decisecondPhase := m.decisecondPhase + 1 }

/-! ### Level windows (R144, R147, R148) -/

/-- The magnitude of a talk slot's sample; an empty slot adds 0 (R144). -/
def slotMagnitude (slot : Option (BitVec 16)) : Nat :=
  match slot with
  | some x => x.toInt.natAbs
  | none => 0

/-- SLM takes a frame into a running window (R144). -/
def SlmChan.takeFrame (slot : Option (BitVec 16)) (m : SlmChan) : SlmChan :=
  match m.progress with
  | some p => { m with progress := some (p + 1), sum := m.sum + slotMagnitude slot }
  | none => m

/-- The window has reached its length (R144). -/
def SlmChan.windowFull (m : SlmChan) : Bool :=
  match m.progress, m.exponent with
  | some p, some k => decide (2 ^ k ≤ p)
  | _, _ => false

/-- Level result, gate and silence count at a completion, which ends the window (R147 steps 1 and 2, R148). -/
def SlmChan.completeWindow (gateThreshold releaseThreshold : Nat) (m : SlmChan) : SlmChan :=
  let l := m.sum >>> m.exponent.getD 0
  { m.noWindow with
    level := some l
    gateActive := decide (gateThreshold ≤ l)
    silenceCount := if l < releaseThreshold then satAdd 255 m.silenceCount 1 else 0 }

/-- Silence release closes the channel when its test passes (R148). -/
def State.silenceStep (c : Fin 12) (s : State) : State :=
  match (s.chan c).state, (s.chan c).seat with
  | .opened, some seat =>
    if s.mge.settings.silenceCountSetting ≤ (s.slmOf c).silenceCount ∧ (s.classOf seat).silenceRelease then s.closeRequest c .silence
    else s
  | _, _ => s

/-- A full window completes; a new one starts if the channel is still OPEN (R147). -/
def State.finishWindow (s : State) (c : Fin 12) : State :=
  if (s.slmOf c).windowFull then
    let s1 := s.modSlm c fun m => m.completeWindow s.mge.settings.gateThreshold s.mge.settings.releaseThreshold
    let s2 := s1.silenceStep c
    if (s2.chan c).state = .opened then s2.startWindow c else s2
  else s

/-- A talk slot is handed to the channel that holds it: FMX's latest sample and SLM's next frame (R30, R144, R152). -/
def State.handSlot (c : Fin 12) (slot : Option (BitVec 16)) (s : State) : State :=
  (s.modFmx c fun m => { m with latest := match slot with | some x => x.toInt | none => 0, fresh := true }).modSlm c
    (SlmChan.takeFrame slot)

/-- The level monitor is turned off or on (R149). Turning it off acts on FREE channels too, as R149 says of every channel, where R135 has a FREE
channel keep its values until its next allocation (DESIGN CHOICE, log entry 35). -/
def State.monitorChanged (s : State) (on : Bool) : State :=
  allChans.foldl (fun a c =>
    if on then (if (a.chan c).state = .opened then a.startWindow c else a)
    else a.modSlm c fun m => { m.noWindow with gateActive := true, silenceCount := 0 }) s

end Sys2Proof.Machine
end

