-- ==== Sys2Proof/Machine/Trunk.lean ====
section
/-! DEFINITION. Trunk ports: link states, census, teardown, delivery of commands, and the downstream frame (chapter 2). -/

namespace Sys2Proof.Machine

/-! ### Census (R39 to R43) -/

/-- A census starts (R39). -/
def Tpc.startCensus (p : Tpc) : Tpc := { p with censusRunning := true, probed := 0, presentCount := 0, nextProbe := 1 }

/-- A running census ends with an outcome: notice CENSUS and a promotion trigger (R41, R42, R46 step 6). -/
def State.endCensus (t : Fin 4) (outcome : CensusOutcome) (s : State) : State :=
  ((s.modTpc t fun p => { p with censusRunning := false, censusOutcome := outcome }).notify
    (.census t outcome (s.tpc t).presentCount)).trigger

/-- A settled probe is counted; the one to position 120 completes the census (R40, R41). -/
def State.probeSettled (t : Fin 4) (pos : Fin 120) (s : State) : State :=
  let s1 := s.modTpc t fun p => { p with probed := min 120 (p.probed + 1) }
  if posNumber pos = 120 then (s1.setFlag .censusDone).endCensus t .done else s1

/-! ### Link states (R24, R44 to R46) -/

/-- The fields an entry to DOWN or HELD sets (R24). -/
def Tpc.enterOff (link : LinkState) (p : Tpc) : Tpc :=
  { p with link := link, echoes := [], lastAnswered := none, goodRun := 0, badRun := 0 }

/-- Teardown step 1 at one channel (R46). -/
def State.teardownChan (t : Fin 4) (s : State) (c : Fin 12) : State :=
  match (s.chan c).seat with
  | some seat =>
    if seat.trunk = t then
      match (s.chan c).state with
      | .free => s
      | .closing => s.endClose c
      | .offered | .opening | .opened | .held => s.freeChannel c .link
    else s
  | none => s

/-- Teardown steps 1 to 4: channels, list entries, hold set with its fall, list control (R46). -/
def State.teardownFloor (t : Fin 4) (s : State) : State :=
  let s1 := allChans.foldl (State.teardownChan t) s
  let s2 := ((s1.far.list.map Entry.seat).filter fun seat => seat.trunk = t).foldl (fun a seat => a.listRemove seat .lost) s1
  let s3 := ((s2.far.holdSet.filter fun seat => seat.trunk = t).foldl (fun a seat => a.leaveHold seat) s2).holdChanged s2.far.holdLevel
  match s3.far.holder with
  | some seat => if seat.trunk = t then s3.clearHolder seat else s3
  | none => s3

/-- Teardown on a trunk's change to DOWN or HELD: the link state first, then steps 1 to 8 (R46). -/
def State.teardown (t : Fin 4) (link : LinkState) (lostLink : Bool) (s : State) : State :=
  let s1 := (s.modTpc t (Tpc.enterOff link)).teardownFloor t
  let s2 := s1.modTpc t fun p => { p with queue := [], inFlight := none, echoes := [] }
  let s3 := if (s2.tpc t).censusRunning then (s2.setFlag .censusFault).endCensus t .linkFault else s2
  let s4 := if lostLink then (s3.modTpc t fun p => { p with lostLinks := satAdd 255 p.lostLinks 1 }).setFlag .linkLost else s3
  s4.notify (.trunk t link)

/-- The good run has reached 64: the trunk comes UP, and a census starts when auto-census is on (R24, R43). -/
def State.trunkUp (t : Fin 4) (s : State) : State :=
  (s.modTpc t fun p =>
    let p1 := { p with link := .up, goodRun := Config.trunkUpRun, badRun := 0 }
    if s.mge.settings.autoCensus then p1.startCensus else p1).notify (.trunk t .up)

/-- A malformed or missing frame time on a trunk (R24). While HELD none is classed (R23). -/
def State.trunkBad (t : Fin 4) (s : State) : State :=
  match (s.tpc t).link with
  | .down | .held => s
  | .training =>
    if Config.badRunLimit ≤ (s.tpc t).badRun + 1 then (s.modTpc t (Tpc.enterOff .down)).notify (.trunk t .down)
    else s.modTpc t fun p => { p with goodRun := 0, badRun := p.badRun + 1 }
  | .up =>
    if Config.badRunLimit ≤ (s.tpc t).badRun + 1 then s.teardown t .down true
    else s.modTpc t fun p => { p with badRun := p.badRun + 1 }

/-! ### Good frames (R23) -/

/-- How many frames ago a downstream frame was sent: 0 for the latest. -/
def Tpc.age (p : Tpc) (number : Byte) : Nat := (p.nextFrame - 1 - number).toNat

/-- A number is of one of the last four downstream frames sent. -/
def Tpc.inWindow (p : Tpc) (number : Byte) : Bool := decide (p.age number < p.framesSent) && decide (p.age number < 4)

/-- The three conditions of a good upstream frame (R23). -/
def Tpc.goodFrame (p : Tpc) (frame : List Byte) : Bool :=
  trunkLayoutOk frame && p.inWindow (upAnswered frame)
    && (match p.lastAnswered with
      | some last => !p.inWindow last || decide (p.age (upAnswered frame) < p.age last)
      | none => true)

/-! ### Delivery (R34 to R36, R40) -/

/-- An OPEN has completed DONE on its OPENING channel (R55). The first comparison comes after CH_OPEN is queued, as 7.8 Step 1 tells it, where
R139 has it just after the clock is set to 0; a WARN given at the entry thus stands behind CH_OPEN (DESIGN CHOICE, log entry 34). -/
def State.openDone (c : Fin 12) (seat : Seat) (s : State) : State :=
  let s0 := s.modSlm c fun m => { m with clock := 0 }
  let opened := fun (a : State) (st : ChanState) => a.notify (.chOpen c seat (s.chan c).slot (s.chan c).cause st)
  let held := fun (a : State) => (opened a .held).notify (.chHeld c seat)
  match (s.chan c).mutedAtOpen.getD false, s.belowHold c with
  | false, false =>
    let s1 := ((s0.modChan c fun ch => { ch with state := .opened, reachedOpen := some true }).startWindow c).countGrant c
    (opened s1 .opened).comparison c
  | false, true => held ((s0.modChan c fun ch => { ch with state := .held }).place seat .mute)
  | true, true => held (s0.modChan c fun ch => { ch with state := .held })
  | true, false => (held (s0.modChan c fun ch => { ch with state := .held })).placeUnmute c seat

/-- FAR is told that an OPEN completed (R55 to R57, R65). -/
def State.openCompleted (seat : Seat) (result : AckResult) (s : State) : State :=
  match s.chanOf seat with
  | some c =>
    match (s.chan c).state, result with
    | .opening, .done => s.openDone c seat
    | .opening, .rejected => s.freeChannel c .rejected
    | .free, _ | .offered, _ | .opened, _ | .held, _ | .closing, _ => s
  | none => s

/-- FAR is told that a MUTE completed (R59, R65). -/
def State.muteCompleted (seat : Seat) (result : AckResult) (s : State) : State :=
  match s.chanOf seat with
  | some c =>
    match (s.chan c).state, result with
    | .held, .rejected => s.closeRequest c .rejected
    | .held, .done | .free, _ | .offered, _ | .opening, _ | .opened, _ | .closing, _ => s
  | none => s

/-- FAR is told that an UNMUTE completed (R59, R65). -/
def State.unmuteCompleted (seat : Seat) (result : AckResult) (s : State) : State :=
  match s.chanOf seat with
  | some c =>
    match (s.chan c).state, result with
    | .held, .rejected => s.closeRequest c .rejected
    | .held, .done => if s.belowHold c then s.place seat .mute else s.resume c
    | .free, _ | .offered, _ | .opening, _ | .opened, _ | .closing, _ => s
  | none => s

/-- FAR is told that a CLOSE completed, with either result (R62, R65). -/
def State.closeCompleted (seat : Seat) (s : State) : State :=
  match s.chanOf seat with
  | some c =>
    match (s.chan c).state with
    | .closing => s.endClose c
    | .free | .offered | .opening | .opened | .held => s
  | none => s

/-- FAR is told that an OFFER completed (R83, R90). -/
def State.offerCompleted (seat : Seat) (result : AckResult) (s : State) : State :=
  match s.entryOf seat with
  | some e =>
    match e.state, e.deadline, result with
    | .offered, none, .done => s.modEntry seat fun e => { e with deadline := e.window }
    | .offered, none, .rejected => s.endOffer seat .rejected .rejected false
    | .offered, some _, _ | .waiting, _, _ => s
  | none => s

/-- A probe has been answered (R3, R40). -/
def State.probeAnswer (seat : Seat) (data : Byte) (s : State) : State :=
  let s1 := (s.setAvailability seat .present).modSeat seat fun r => { r with confirmKey := some (data.getLsbD 0) }
  (s1.modTpc seat.trunk fun p => { p with presentCount := min 120 (p.presentCount + 1) }).probeSettled seat.trunk seat.pos

/-- A probe has gone unanswered (R3, R38, R40). -/
def State.probeUnanswered (seat : Seat) (s : State) : State :=
  let s1 :=
    if (s.seatRec seat).availability = .absent then s
    else ((s.setAvailability seat .absent).discardUnsent seat).loseSeat seat
  s1.probeSettled seat.trunk seat.pos

/-- What FAR or the census makes of a settled acknowledgement (R35). -/
def State.completed (seat : Seat) (cmd : Cmd) (result : AckResult) (data : Byte) (s : State) : State :=
  match cmd with
  | .openMic _ _ => s.openCompleted seat result
  | .mute => s.muteCompleted seat result
  | .unmute => s.unmuteCompleted seat result
  | .close => s.closeCompleted seat
  | .offer => s.offerCompleted seat result
  | .probe => s.probeAnswer seat data
  | .withdraw | .queued | .refused | .warn | .listState _ | .allOff => s

/-- The in-flight command becomes absent. -/
def State.endDelivery (t : Fin 4) (s : State) : State := s.modTpc t fun p => { p with inFlight := none }

/-- The delivery of a command has failed (R36 steps 1 to 4). -/
def State.deliveryFailed (seat : Seat) (s : State) : State :=
  let s1 := (s.endDelivery seat.trunk).modTpc seat.trunk fun p => { p with cmdFailures := satAdd 255 p.cmdFailures 1 }
  (((s1.setAvailability seat .unreachable).setFlag .seatLost).discardUnsent seat).loseSeat seat

/-- An attempt has failed: the probe is unanswered, the command is retried, or delivery fails (R36). -/
def State.attemptFailed (t : Fin 4) (f : InFlight) (s : State) : State :=
  if f.cmd = .probe then (s.endDelivery t).probeUnanswered ⟨t, f.pos⟩
  else if f.attempts < s.mge.settings.retryLimit then s.modTpc t fun p => { p with inFlight := some { f with status := .retry } }
  else s.deliveryFailed ⟨t, f.pos⟩

/-- A good frame of an UP trunk settles the attempt in flight, or leaves it (R34). -/
def State.settleAttempt (t : Fin 4) (answered : Byte) (ack : Option UpAck) (s : State) : State :=
  match (s.tpc t).inFlight with
  | some f =>
    if f.status = .retry then s
    else if f.frame = answered then
      match ack with
      | some a =>
        if a.position.val = posNumber f.pos then (s.endDelivery t).completed ⟨t, f.pos⟩ f.cmd a.result a.data
        else s.attemptFailed t f
      | none => s.attemptFailed t f
    else if (s.tpc t).age answered < (s.tpc t).age f.frame then s.attemptFailed t f
    else s
  | none => s

/-- The talk slots of a good frame: each handed to its channel, then full windows completed in ascending channel number
(R30, R144, R147). -/
def State.takeSlots (t : Fin 4) (frame : List Byte) (s : State) : State :=
  let s1 := allSlots.foldl (fun a k =>
    match a.slotHolder none t k with
    | some c => a.handSlot c (upSlot frame k)
    | none => a) s
  allChans.foldl (fun a c => if (a.chan c).trunk = some t then a.finishWindow c else a) s1

/-! ### The downstream frame (R25, R33, R34, R37, R40) -/

/-- The command field R33 chooses, and the port after it. -/
def Tpc.arbitrate (p : Tpc) : Option (Option (Fin 120) × Cmd) × Tpc :=
  match p.inFlight with
  | some f =>
    match f.status with
    | .retry =>
      (some (some f.pos, f.cmd), { p with inFlight := some { f with attempts := f.attempts + 1, frame := p.nextFrame, status := .sent } })
    | .sent => (none, p)
  | none =>
    match nextQueued p.queue with
    | some e =>
      match e.target with
      | none => (some (none, e.cmd), { p with queue := p.queue.erase e })
      | some pos => (some (some pos, e.cmd), { p with queue := p.queue.erase e, inFlight := some ⟨pos, e.cmd, 1, p.nextFrame, .sent⟩ })
    | none =>
      if h : p.censusRunning = true ∧ 1 ≤ p.nextProbe ∧ p.nextProbe - 1 < 120 then
        (some (some ⟨p.nextProbe - 1, h.2.2⟩, .probe),
          { p with inFlight := some ⟨⟨p.nextProbe - 1, h.2.2⟩, .probe, 1, p.nextFrame, .sent⟩, nextProbe := p.nextProbe + 1 })
      else (none, p)

/-- The port after a frame has gone out: the number advances and the frame joins the last four (R25). -/
def Tpc.advance (p : Tpc) : Tpc := { p with nextFrame := p.nextFrame + 1, framesSent := min 4 (p.framesSent + 1) }

/-- The attempt in flight whose frame is no longer among the last four sent (R34). -/
def Tpc.overdue (p : Tpc) : Option InFlight :=
  match p.inFlight with
  | some f => if f.status = .sent ∧ 4 ≤ p.age f.frame then some f else none
  | none => none

/-- What a downstream frame carries, and the port after it is sent (R25). -/
def Tpc.sendFrame (mix : Int) (p : Tpc) : List Byte × Tpc :=
  if p.link = .up then
    (trunkFrame p.nextFrame p.echoes p.arbitrate.1 mix, { p.arbitrate.2.advance with echoes := [] })
  else (trunkFrame p.nextFrame [] none mix, p.advance)

/-- A downstream frame is sent unless the trunk is HELD; the fourth frame after a command fails its attempt (R25, R34). -/
def State.sendTrunk (t : Fin 4) (s : State) : State :=
  if (s.tpc t).link = .held then s
  else
    let sent := (s.tpc t).sendFrame s.fmx.mixSample
    let s1 := { (s.modTpc t fun _ => sent.2) with trunkOut := vset s.trunkOut t (some sent.1) }
    match (s1.tpc t).link, (s1.tpc t).overdue with
    | .up, some f => s1.attemptFailed t f
    | _, _ => s1

end Sys2Proof.Machine
end

