-- ==== Sys2Proof/Machine/Events.lean ====
section
/-! DEFINITION. Seat events: intake, echo and deduplication (R26-R29), and what FAR and STB do with each kind (R5, R79-R88, R101-R108,
R118-R131). -/

namespace Sys2Proof.Machine

/-! ### New requests (R101 to R108) -/

/-- A census runs on the seat's trunk. -/
def State.censusOn (s : State) (seat : Seat) : Bool := (s.tpc seat.trunk).censusRunning

/-- A request refused under policy DENY (R102). -/
def State.denyRequest (seat : Seat) (s : State) : State :=
  (s.place seat .refused).modMge fun m => { m with refused := satAdd 65535 m.refused 1 }

/-- A replacement for the requester when there is a candidate (R104, R105). -/
def State.replaceOr (seat : Seat) (fallBack : State → State) (s : State) : State :=
  match s.candidate seat with
  | some c => s.replaceChan c seat
  | none => fallBack s

/-- A delegate's request in DIRECT mode; while a batch is open it allocates and replaces nothing (R102, R108). -/
def State.directRequest (seat : Seat) (s : State) : State :=
  let insert := fun (a : State) => a.insertRequest seat .seat
  if s.censusOn seat then insert s
  else if s.eligible seat then if s.mge.batch.isSome then insert s else s.allocate seat .direct
  else
    match s.mge.settings.policy with
    | .queue => insert s
    | .deny => s.denyRequest seat
    | .replace => if s.mge.batch.isSome then insert s else s.replaceOr seat insert

/-- Chair bypass (R107); while a batch is open, an insertion (R108). -/
def State.chairBypass (seat : Seat) (s : State) : State :=
  let insert := fun (a : State) => a.insertRequest seat .chairBypass
  if s.mge.batch.isSome then insert s
  else if s.eligible seat then s.allocate seat .chair
  else s.replaceOr seat insert

/-- A new request from an IDLE seat (R101). -/
def State.newRequest (seat : Seat) (s : State) : State :=
  if !(s.seatRec seat).enabled then s.place seat .refused
  else
    match s.kindOf seat with
    | .listener => s.place seat .refused
    | .chair => s.chairBypass seat
    | .delegate =>
      match s.mge.settings.mode with
      | .direct => s.directRequest seat
      | .list | .auto => s.insertRequest seat .seat

/-! ### Presses and confirms (R66, R79 to R88, R106) -/

/-- A close request on the channel of a seat (R66). -/
def State.closeSeat (seat : Seat) (cause : CloseCause) (s : State) : State :=
  match s.chanOf seat with
  | some c => s.closeRequest c cause
  | none => s

/-- The press of an OFFERED seat is a decline: its unit has a confirm key and press-as-confirm is off (R85). -/
def State.pressDeclines (s : State) (seat : Seat) : Bool := (s.seatRec seat).confirmKey = some true && !s.mge.settings.pressAsConfirm

/-- MIC_PRESS; bit 0 of the argument is the offer mark (R79). -/
def State.micPressed (arg : Byte) (seat : Seat) (s : State) : State :=
  match s.floorState seat with
  | .idle => if arg.getLsbD 0 then s.place seat .refused else s.newRequest seat
  | .waiting => if s.mge.settings.secondPressCancels then s.listRemove seat .withdrawn else s
  | .offered => if s.pressDeclines seat then s.endOffer seat .declined .released true else s.acceptOffer seat
  | .opening | .opened | .held => s.closeSeat seat .released
  | .closing => s
  | .succeeding => s.dropSuccession seat

/-- CONFIRM (R79, R85, R88). -/
def State.confirmed (seat : Seat) (s : State) : State :=
  match s.floorState seat with
  | .idle => s.place seat .refused
  | .offered => s.acceptOffer seat
  | .waiting | .opening | .opened | .held | .closing | .succeeding => s

/-! ### Chair events (R118, R120, R127, R128, R131) -/

/-- PRIORITY_DOWN (R118). -/
def State.priorityPressed (seat : Seat) (s : State) : State :=
  if seat ∈ s.far.holdSet ∨ !(s.seatRec seat).enabled then s
  else
    let s1 := s.joinHold seat
    let s2 := if s1.floorState seat = .idle then s1.chairBypass seat else s1
    if s.far.holdLevel < s2.far.holdLevel then s2.rise else s2

/-- PRIORITY_UP (R120). -/
def State.priorityReleased (seat : Seat) (s : State) : State := (s.leaveHold seat).holdChanged s.far.holdLevel

/-- One promotion step, as NEXT makes it (R111). -/
def State.promoteNext (s : State) : State :=
  match s.nextPromotable with
  | some seat => s.promote seat
  | none => s

/-- One entry of a list clearing (R94). -/
def State.clearEntry (s : State) (seat : Seat) : State :=
  match s.entryOf seat with
  | some e =>
    match e.state with
    | .waiting => s.listRemove seat .cleared
    | .offered => s.endOffer seat .cleared .controller true
  | none => s

/-- The list is cleared from the head (R94). -/
def State.clearWholeList (s : State) : State := (s.far.list.map Entry.seat).foldl State.clearEntry s

/-- The seat holds list control and is enabled (R124, R131). -/
def State.mayControl (s : State) (seat : Seat) : Bool := s.far.holder = some seat && (s.seatRec seat).enabled

/-- CHAIR_NEXT (R131, R124). -/
def State.chairNexted (seat : Seat) (s : State) : State :=
  if s.mayControl seat then s.promoteNext else s.place seat (.listState false)

/-- CHAIR_CLEAR (R131, R124). -/
def State.chairCleared (seat : Seat) (s : State) : State :=
  if s.mayControl seat then s.clearWholeList else s.place seat (.listState false)

/-- TAKE_LIST (R127, R124). -/
def State.listTaken (seat : Seat) (s : State) : State :=
  if !(s.seatRec seat).enabled then s.place seat (.listState false)
  else if s.far.holder = some seat then s.place seat (.listState true)
  else if s.far.holder = none ∧ !s.far.claimed ∧ !s.far.forceReturn then
    ((s.modFar fun f => { f with holder := some seat }).place seat (.listState true)).notifyList
  else s.place seat (.listState false)

/-- GIVE_LIST (R128). -/
def State.listGiven (seat : Seat) (s : State) : State := s.clearHolder seat

/-! ### HELLO (R5) -/

/-- The floor state of a restarted unit's seat goes back to IDLE (R5). -/
def State.helloFloor (seat : Seat) (s : State) : State :=
  match s.floorState seat with
  | .idle | .closing => s
  | .waiting => s.listRemove seat .withdrawn
  | .offered => s.endOffer seat .withdrawn .released true
  | .opening | .opened | .held => s.closeSeat seat .released
  | .succeeding => s.dropSuccession seat

/-- HELLO; bit 0 of the argument is the confirm-key capability (R5, R194). A chair that is both a hold-set member and the holder leaves as by
PRIORITY_UP, with the fall (R121, R122), before it loses the list as by GIVE_LIST: R5 does not order the two (DESIGN CHOICE, log entry 29). -/
def State.helloed (arg : Byte) (wasPresent : Bool) (seat : Seat) (s : State) : State :=
  let s1 := s.modSeat seat fun r => { r with confirmKey := some (arg.getLsbD 0) }
  if wasPresent then ((s1.helloFloor seat).priorityReleased seat).listGiven seat else s1

/-! ### Intake (R26 to R29) -/

/-- The kinds of seat event (11.6). -/
inductive EventKind where
  | hello | micPress | confirm | priorityDown | priorityUp | chairNext | chairClear | takeList | giveList
  deriving DecidableEq, Repr

/-- The kind of an event code; `none` when the code is not listed (11.6). -/
def eventKindOfCode (code : Nat) : Option EventKind :=
  match code with
  | 0 => some .hello
  | 1 => some .micPress
  | 2 => some .confirm
  | 3 => some .priorityDown
  | 4 => some .priorityUp
  | 5 => some .chairNext
  | 6 => some .chairClear
  | 7 => some .takeList
  | 8 => some .giveList
  | _ => none

/-- A chair event is ignored and sets BAD_EVENT when the seat's class is not of kind CHAIR (R29). -/
def State.chairEvent (seat : Seat) (act : State → State) (s : State) : State :=
  if s.kindOf seat = .chair then act s else s.setFlag .badEvent

/-- Dispatch of an accepted event by its kind (R29). -/
def State.dispatch (kind : Option EventKind) (arg : Byte) (wasPresent : Bool) (seat : Seat) (s : State) : State :=
  match kind with
  | some .hello => s.helloed arg wasPresent seat
  | some .micPress => s.micPressed arg seat
  | some .confirm => s.confirmed seat
  | some .priorityDown => s.chairEvent seat (State.priorityPressed seat)
  | some .priorityUp => s.chairEvent seat (State.priorityReleased seat)
  | some .chairNext => s.chairEvent seat (State.chairNexted seat)
  | some .chairClear => s.chairEvent seat (State.chairCleared seat)
  | some .takeList => s.chairEvent seat (State.listTaken seat)
  | some .giveList => s.chairEvent seat (State.listGiven seat)
  | none => s.setFlag .badEvent

/-- An echo joins the list, which holds two; the oldest is dropped first (R28). -/
def addEcho (e : Echo) (l : List Echo) : List Echo := (l ++ [e]).drop ((l ++ [e]).length - 2)

/-- The event is echoed (R28). -/
def State.echo (seat : Seat) (serial : Fin 16) (s : State) : State :=
  s.modTpc seat.trunk fun p => { p with echoes := addEcho ⟨seat.pos, serial⟩ p.echoes }

/-- An accepted event makes its seat PRESENT, and its serial is stored (R27). -/
def State.accept (seat : Seat) (serial : Fin 16) (s : State) : State :=
  (s.setAvailability seat .present).modSeat seat fun r => { r with lastSerial := some serial }

/-- A seat event in an event position of a good frame of an UP trunk: position check, echo, deduplication, dispatch (R26 to R29), and
the promotion of its handling (R109). -/
def State.takeEvent (t : Fin 4) (position : Fin 128) (serial : Fin 16) (kind : Option EventKind) (arg : Byte) (s : State) : State :=
  match seatOfPosition t position with
  | none => s.setFlag .badEvent
  | some seat =>
    let s1 := s.echo seat serial
    if (s.seatRec seat).lastSerial = some serial then s1
    else ((s1.accept seat serial).dispatch kind arg ((s.seatRec seat).availability = .present) seat).settle

/-- A seat event as a command of its own: taken while no start-up hold is in force and the trunk is UP (R26, R191). -/
def State.seatEvent (t : Fin 4) (position : Fin 128) (serial : Fin 16) (kind : EventKind) (arg : Byte) (s : State) : State :=
  if s.running ∧ (s.tpc t).link = .up then s.takeEvent t position serial (some kind) arg else s

/-- The event of one event position of a frame; an empty position is passed over (R26). -/
def State.takeUpEvent (t : Fin 4) (e : Option UpEvent) (s : State) : State :=
  match e with
  | some e => s.takeEvent t e.position e.serial (eventKindOfCode e.kind.val) e.arg
  | none => s

/-! ### Received trunk frames (R23, R24) -/

/-- The contents of a good frame of an UP trunk: events, acknowledgement, talk slots (R26, R30, R34; log entry 7). -/
def State.takeContents (t : Fin 4) (frame : List Byte) (s : State) : State :=
  let s1 := (s.takeUpEvent t (upEventAt frame 2)).takeUpEvent t (upEventAt frame 5)
  let s2 := (s1.settleAttempt t (upAnswered frame) (upAck frame)).settle
  (s2.takeSlots t frame).settle

/-- A good frame (R24). -/
def State.trunkGood (t : Fin 4) (frame : List Byte) (s : State) : State :=
  let s1 := s.modTpc t fun p => { p with lastAnswered := some (upAnswered frame) }
  match (s.tpc t).link with
  | .held => s
  | .down => (s1.modTpc t fun p => { p with link := .training, goodRun := 1, badRun := 0 }).notify (.trunk t .training)
  | .training =>
    if Config.trunkUpRun ≤ (s.tpc t).goodRun + 1 then s1.trunkUp t
    else s1.modTpc t fun p => { p with goodRun := p.goodRun + 1, badRun := 0 }
  | .up => (s1.modTpc t fun p => { p with badRun := 0 }).takeContents t frame

/-- A frame time that brought a frame: classed good or malformed by R23. -/
def State.receiveTrunk (t : Fin 4) (frame : List Byte) (s : State) : State :=
  if (s.tpc t).goodFrame frame then s.trunkGood t frame else (s.trunkBad t).settle

end Sys2Proof.Machine
end

