-- ==== Sys2Proof/Machine/Hall.lean ====
section
/-! DEFINITION. The hall link: link states, assembly and acceptance of control packets, the upstream frame and its lane, the loss of the
link (R164-R169, R175-R178). -/

namespace Sys2Proof.Machine

/-! ### Places of the reply queue (R169) -/

/-- A place whose reply is ready: no record waits (R169). -/
def Place.ready (p : Place) : Bool := p.waiting.isEmpty

/-- The first place that has a record to execute (R169). -/
def nextPlace (q : List Place) : Option Place := q.find? fun p => !p.ready

/-- The bytes of the record MGE executes next. -/
def State.nextRecord (s : State) : Option (List Byte) := (nextPlace s.hli.replyQueue).bind fun p => p.waiting.head?

/-- A batch open while no accepted record waits was opened by a record of its own. It ends with the packet those records stand for: when a
packet with records is accepted, or when the queue of commands has run empty (R172; log entry 3). -/
def State.endOwnBatch (s : State) : State := if s.mge.batch.isSome && s.nextRecord.isNone then s.endBatch else s

/-! ### Acceptance (R168, R177) -/

/-- A valid control packet makes the engine ATTENDED and restarts the silence timer (R177). -/
def State.refreshAttendance (s : State) : State := s.modHli fun h => { h with attended := true, silenceTimer := some 0 }

/-- The place a packet takes: its records wait, or a MALFORMED reply is ready at once (R168 step 3, R169). -/
def placeOfPacket (p : List Byte) : Place :=
  match packetRecords p with
  | some rs => ⟨byteAt p 2, false, rs, []⟩
  | none => ⟨byteAt p 2, true, [], []⟩

/-- A packet takes its place; one that brings records ends a batch of records of their own first, since a batch never spans two packets
(R168, R169, R172; log entry 3). -/
def State.takePlace (p : Place) (s : State) : State :=
  (if p.ready then s else s.endOwnBatch).modHli fun h => { h with replyQueue := h.replyQueue ++ [p] }

/-- A completed packet is accepted or discarded (R168). -/
def State.acceptPacket (p : List Byte) (s : State) : State :=
  if packetCrcOk p then
    let s1 := s.refreshAttendance
    if s1.hli.replyQueue.length < Config.replyCapacity then s1.takePlace (placeOfPacket p)
    else s1.setFlag .laneOverrun
  else s.setFlag .laneError

/-! ### Assembly (R167) -/

/-- The assembly in progress, if any, is discarded and LANE_ERROR is set (R167). -/
def State.breakAssembly (s : State) : State :=
  if s.hli.assembly.isSome then (s.modHli fun h => { h with assembly := none }).setFlag .laneError else s

/-- The assembly holds these bytes: a bad announced length ends it, a full one is passed to acceptance (R167). -/
def State.assembled (bytes : List Byte) (s : State) : State :=
  if bytes.length < 2 then s.modHli fun h => { h with assembly := some bytes }
  else if packetLength bytes < 6 ∨ 256 < packetLength bytes then (s.modHli fun h => { h with assembly := none }).setFlag .laneError
  else if packetLength bytes ≤ bytes.length then
    (s.modHli fun h => { h with assembly := none }).acceptPacket (bytes.take (packetLength bytes))
  else s.modHli fun h => { h with assembly := some bytes }

/-- The lane bytes of a valid frame while UP (R167, R165). -/
def State.takeLane (frame : List Byte) (s : State) : State :=
  if laneCount frame = 0 then s
  else if packetStart frame then s.breakAssembly.assembled (laneBytes frame)
  else
    match s.hli.assembly with
    | some old => s.assembled (old ++ laneBytes frame)
    | none => s

/-- A frame number that is not one above the last breaks the assembly (R167). -/
def State.checkGap (number : Byte) (s : State) : State :=
  if s.hli.lastFrame = some (number - 1) then s else s.breakAssembly

/-! ### Link states (R164, R178) -/

/-- A lane packet in progress is abandoned: a reply stays in its place, the notices of a notice packet are counted lost
(R178 steps 2 and 3; which reply is then begun first: log entry 17). -/
def State.abandonLane (s : State) : State :=
  let s1 := s.modHli fun h => { h with laneSender := none }
  match s.hli.laneSender with
  | some ⟨.notices count, _, _⟩ => (s1.modMge fun m => { m with noticesLost := satAdd 255 m.noticesLost count }).setFlag .noticeLost
  | some ⟨.reply _, _, _⟩ | none => s1

/-- The hall link goes from UP to DOWN (R178). -/
def State.hallLost (s : State) : State :=
  ((s.modHli fun h => { h with link := .down, lastFrame := none, badRun := Config.badRunLimit }).abandonLane).unattend

/-- A valid frame (R164). -/
def State.hallValid (frame : List Byte) (s : State) : State :=
  let number := byteAt frame 1
  match s.hli.link with
  | .down => s.modHli fun h => { h with link := .aligning, validRun := 1, badRun := 0, lastFrame := some number }
  | .aligning =>
    if Config.hallUpRun ≤ s.hli.validRun + 1 then
      s.modHli fun h =>
        { h with link := .up, validRun := Config.hallUpRun, badRun := 0, lastFrame := some number, assembly := none }
    else s.modHli fun h => { h with validRun := h.validRun + 1, badRun := 0, lastFrame := some number }
  | .up =>
    ((s.checkGap number).modHli fun h => { h with badRun := 0, lastFrame := some number }).takeLane frame

/-- An invalid or missing frame (R164, R167). -/
def State.hallBad (s : State) : State :=
  match s.hli.link with
  | .down => s
  | .aligning =>
    if Config.badRunLimit ≤ s.hli.badRun + 1 then
      s.modHli fun h => { h with link := .down, validRun := 0, badRun := Config.badRunLimit, lastFrame := none }
    else s.modHli fun h => { h with validRun := 0, badRun := h.badRun + 1 }
  | .up =>
    if Config.badRunLimit ≤ s.hli.badRun + 1 then s.breakAssembly.hallLost
    else s.breakAssembly.modHli fun h => { h with badRun := h.badRun + 1 }

/-- A frame time that brought a frame: classed valid or invalid by R165. -/
def State.receiveHall (frame : List Byte) (s : State) : State := if hallFrameOk frame then s.hallValid frame else s.hallBad

/-! ### The upstream lane (R169, R175) -/

/-- The packet the lane begins when it is free: the oldest ready reply, else up to 8 of the oldest notices, which leave the queue
(R175). After a link outage too the oldest ready reply comes first, even where a younger MALFORMED one was cut off: R178 has the abandoned reply
sent again before any other packet and also has the lane resume with the oldest ready reply, and the model takes the second (DESIGN CHOICE, log
entry 17). -/
def Hli.beginPacket (h : Hli) : Hli :=
  match h.replyQueue.findIdx? Place.ready with
  | some i =>
    match h.replyQueue[i]? with
    | some p => { h with laneSender := some ⟨.reply i, replyPacket p, 0⟩ }
    | none => h
  | none =>
    if h.noticeQueue.isEmpty then h
    else
      { h with
        laneSender := some ⟨.notices (h.noticeQueue.take 8).length, noticePacket (h.noticeQueue.take 8), 0⟩
        noticeQueue := h.noticeQueue.drop 8 }

/-- The interface with a packet on its lane, where one can begin. -/
def Hli.readyLane (h : Hli) : Hli := if h.laneSender.isSome then h else h.beginPacket

/-- The lane bytes of the next upstream frame. -/
def Hli.nextLaneBytes (h : Hli) : List Byte :=
  match h.laneSender with
  | some p => (p.bytes.drop p.sent).take 4
  | none => []

/-- The packet-start mark of the next upstream frame. -/
def Hli.startsPacket (h : Hli) : Bool :=
  match h.laneSender with
  | some p => p.sent == 0
  | none => false

/-- The interface after a frame has carried the next lane bytes; the last byte of a reply releases its place (R169). -/
def Hli.sentLane (h : Hli) : Hli :=
  match h.laneSender with
  | some p =>
    if p.bytes.length ≤ p.sent + 4 then
      match p.source with
      | .reply i => { h with laneSender := none, replyQueue := h.replyQueue.eraseIdx i }
      | .notices _ => { h with laneSender := none }
    else { h with laneSender := some { p with sent := p.sent + 4 } }
  | none => h

/-- The interface as it stands when a frame is built: while the link is UP the lane is made ready (R175). -/
def Hli.laneNow (h : Hli) : Hli := if h.link = .up then h.readyLane else h

/-- The upstream hall frame built now (R166, R176). -/
def State.upstreamFrame (s : State) (h : Hli) : List Byte :=
  hallFrame h.upFrame s.attention h.attended (h.link = .up && h.startsPacket) (if h.link = .up then h.nextLaneBytes else [])
    (s.fmx.chans.toList.map FmxChan.slotSample) s.fmx.mixSample

/-- The interface after its upstream frame has gone out. -/
def Hli.afterFrame (h : Hli) : Hli :=
  let h1 := if h.link = .up then h.sentLane else h
  { h1 with upFrame := h.upFrame + 1 }

/-- An upstream hall frame is sent (R166). -/
def State.sendHall (s : State) : State :=
  { s with hli := s.hli.laneNow.afterFrame, hallOut := some (s.upstreamFrame s.hli.laneNow) }

end Sys2Proof.Machine
end

