-- ==== Sys2Proof/Machine/Packets.lean ====
section
/-! DEFINITION. MGE's execution of records: the next waiting record, replies, the batch scope, and the running of one record
(R169-R172; log entry 3). -/

namespace Sys2Proof.Machine

/-- What a record answers, and the state it leaves. -/
structure Answer where
  state : State
  status : Status
  fields : List Byte

/-- A refusal: no result field is carried, whatever record the owning rule has the reply carry (R170; DESIGN CHOICE, log entry 31). -/
def Answer.refuse (status : Status) (s : State) : Answer := ⟨s, status, []⟩

/-- What MGE executes next, unless a start-up hold is in force (R169, R191). -/
def State.nextWaiting (s : State) : Option Waiting := if s.running then s.nextRecord.map decodeRecord else none

/-- Change the first place that has a record to execute. -/
def modNextPlace (f : Place → Place) : List Place → List Place
  | [] => []
  | p :: q => if p.ready then p :: modNextPlace f q else f p :: q

/-- The next record is answered: its reply record joins the reply of its place (R170). -/
def State.answerPlace (r : ReplyRecord) (s : State) : State :=
  s.modHli fun h => { h with replyQueue := modNextPlace (fun p => { p with waiting := p.waiting.drop 1, answered := p.answered ++ [r] }) h.replyQueue }

/-- The reply record of the record executed last (log entry 3). -/
def State.setReply (r : ReplyRecord) (s : State) : State := { s with lastReply := some r }

/-- A record is answered: as the reply record kept last, and in its packet's place when it came from one (R170; log entry 3). -/
def State.replied (r : ReplyRecord) (fromPacket : Bool) (s : State) : State :=
  if fromPacket then (s.setReply r).answerPlace r else s.setReply r

/-- The record executed next is the last of its packet. -/
def State.lastOfPacket (s : State) : Bool :=
  match nextPlace s.hli.replyQueue with
  | some p => p.waiting.length == 1
  | none => false

/-! ### The batch scope (R172) -/

/-- The batch scope after a record: a record answered while a batch was open counts as one of the remaining, and the batch ends at 0 or
after the last record of its packet (R172). -/
def State.countBatch (wasOpen lastRecord : Bool) (s : State) : State :=
  match s.mge.batch with
  | none => s
  | some n =>
    let left := if wasOpen then n - 1 else n
    if (wasOpen && left == 0) || lastRecord then s.endBatch else s.modMge fun m => { m with batch := some left }

/-! ### Running one record -/

/-- The command is the record MGE executes next, or no accepted record waits (log entry 3). -/
def State.recordTurn (s : State) (i : Instr) : Bool :=
  match s.nextWaiting with
  | none => true
  | some w => w = .command i

/-- A record is executed, answered and counted (R170, R172). In the place of its packet when it is the record that waits next; with no
record waiting, as a record of its own; otherwise not (log entry 3). -/
def State.runRecord (i : Instr) (kind : Byte) (body : State → Answer) (s : State) : State :=
  if s.running && s.recordTurn i then
    let a := body s
    (a.state.replied ⟨kind, a.status, a.fields⟩ s.nextRecord.isSome).countBatch s.mge.batch.isSome s.lastOfPacket
  else s

/-- A record of a known kind with a length that does not match (R170). -/
def State.answerBadLength (kind : Byte) (s : State) : State :=
  (s.replied ⟨kind, .badField, []⟩ true).countBatch s.mge.batch.isSome s.lastOfPacket

end Sys2Proof.Machine
end

