-- ==== Sys2Proof/Machine/Params.lean ====
section
/-! DEFINITION. The parameters of LOAD_SEAT, SET_CLASS, SET_ZONE and SET_FLOOR: the checks that depend on the record alone, the values they
leave, and which of them are clamped (R10, R11, R16, R18, R180). -/

namespace Sys2Proof

open Sys2Proof.Machine

/-! ### LOAD_SEAT (R18) -/

/-- The valid seats from a first to a last code, ascending (R18). -/
def seatsOfRange (first last : Nat) : List Seat := allSeats.filter fun seat => first ≤ seatCode seat && seatCode seat ≤ last

/-- The seats of a LOAD_SEAT. -/
def LoadSeatParams.range (p : LoadSeatParams) : List Seat := seatsOfRange p.first.toNat p.last.toNat

/-- Whether the presence mask names no field (R197). -/
def LoadSeatParams.empty (p : LoadSeatParams) : Bool := p.enabled.isNone && p.cls.isNone && p.trim.isNone && p.override.isNone

/-- The override code and value are acceptable. -/
def overrideOk (o : Option (Byte × BitVec 16)) : Bool :=
  match o with
  | none => true
  | some x => x.1 = 0 || x.1 = 1

/-- Field checks of LOAD_SEAT (R10 step 1, R18). -/
def LoadSeatParams.fieldsOk (p : LoadSeatParams) : Bool :=
  decide (p.first.toNat ≤ maxSeatCode) && decide (p.last.toNat ≤ maxSeatCode) && codeOk boolOfCode p.enabled && codeOk (finOfByte 8) p.cls
    && overrideOk p.override && decide (p.first.toNat ≤ p.last.toNat)

/-- Seat-code checks of LOAD_SEAT (R10 step 2, R18). -/
def LoadSeatParams.seatsOk (p : LoadSeatParams) : Bool := p.first ≠ 0 && p.last ≠ 0 && !p.range.isEmpty

/-- The override a record leaves in a seat: a clamped value, cleared, or as held (R18). -/
def overrideAfter (o : Option (Byte × BitVec 16)) (held : Option Nat) : Option Nat :=
  match o with
  | none => held
  | some x => if x.1 = 0 then some (clampNat 0 3600 x.2.toNat) else none

/-- Whether an override value was clamped (R18). -/
def overrideClamped (o : Option (Byte × BitVec 16)) : Bool :=
  match o with
  | none => false
  | some x => x.1 = 0 && decide (3600 < x.2.toNat)

/-- A seat record with the named fields (R18). -/
def LoadSeatParams.apply (p : LoadSeatParams) (r : SeatRec) : SeatRec :=
  { r with
    enabled := codeOr boolOfCode p.enabled r.enabled
    cls := codeOr (finOfByte 8) p.cls r.cls
    trim := intOr (-24) 24 p.trim r.trim
    override := overrideAfter p.override r.override }

/-- Whether a value was clamped. -/
def LoadSeatParams.clamped (p : LoadSeatParams) : Bool := intClamped (-24) 24 p.trim || overrideClamped p.override

/-- The Seat Table after the record. -/
def LoadSeatParams.stbAfter (p : LoadSeatParams) (stb : Stb) : Stb :=
  { stb with seats := p.range.foldl (fun v seat => vset v (seatIndex seat) (p.apply (vget v (seatIndex seat)))) stb.seats }

/-! ### SET_CLASS (R11) -/

/-- Coded fields of SET_CLASS, but for the class number (R10 step 1). -/
def SetClassParams.codesOk (p : SetClassParams) : Bool :=
  codeOk kindOfCode p.kind && codeOk groupOfCode p.group && codeOk actionOfCode p.action && codeOk boolOfCode p.silenceRelease
    && codeOk boolOfCode p.replaceable

/-- A class record with the named fields; allowance and offset clamped (R11). -/
def SetClassParams.apply (p : SetClassParams) (r : ClassRec) : ClassRec where
  kind := codeOr kindOfCode p.kind r.kind
  level := (p.level.map levelOfByte).getD r.level
  group := codeOr groupOfCode p.group r.group
  allowance := numOr 0 3600 (halfNum p.allowance) r.allowance
  action := codeOr actionOfCode p.action r.action
  offset := intOr (-24) 12 p.offset r.offset
  silenceRelease := codeOr boolOfCode p.silenceRelease r.silenceRelease
  replaceable := codeOr boolOfCode p.replaceable r.replaceable

/-- Whether a value was clamped. -/
def SetClassParams.clamped (p : SetClassParams) : Bool := numClamped 0 3600 (halfNum p.allowance) || intClamped (-24) 12 p.offset

/-- Kind, level or group would change (R183). -/
def classLocked (old new : ClassRec) : Bool := old.kind ≠ new.kind || old.level ≠ new.level || old.group ≠ new.group

/-! ### SET_ZONE (R16) -/

/-- Whether the presence mask names no field (R197). -/
def SetZoneParams.empty (p : SetZoneParams) : Bool := p.enabled.isNone && p.base.isNone && p.limit.isNone && p.cap.isNone

/-- A masked seat-code field lies within 0-504. -/
def codeFieldOk (o : Option (BitVec 16)) : Bool :=
  match o with
  | none => true
  | some x => decide (x.toNat ≤ maxSeatCode)

/-- Field checks of SET_ZONE, but for the zone number (R16). -/
def SetZoneParams.fieldsOk (p : SetZoneParams) : Bool := codeOk boolOfCode p.enabled && codeFieldOk p.base && codeFieldOk p.limit

/-- A window with the named fields; the cap clamped to 12 (R16). -/
def SetZoneParams.apply (p : SetZoneParams) (z : ZoneRec) : ZoneRec where
  enabled := codeOr boolOfCode p.enabled z.enabled
  base := (halfNum p.base).getD z.base
  limit := (halfNum p.limit).getD z.limit
  cap := numOr 0 12 (byteNum p.cap) z.cap

/-! ### SET_FLOOR (R180) -/

/-- Coded fields of SET_FLOOR (R180 step 1). -/
def SetFloorParams.codesOk (p : SetFloorParams) : Bool :=
  codeOk modeOfCode p.mode && codeOk policyOfCode p.policy && codeOk disciplineOfCode p.discipline && codeOk boolOfCode p.confirm
    && codeOk boolOfCode p.pressAsConfirm && codeOk boolOfCode p.secondPressCancels && codeOk priorityOfCode p.priorityAction
    && codeOk boolOfCode p.nomAttenuation && codeOk boolOfCode p.levelMonitor && codeOk boolOfCode p.autoCensus

/-- The floor limit after the record (R180 step 2). -/
def SetFloorParams.limitAfter (p : SetFloorParams) (v : Settings) : Nat := numOr 1 12 (byteNum p.floorLimit) v.floorLimit

/-- The chair reserve named or held, before it is held below the floor limit (R180 step 2). -/
def SetFloorParams.reserveNamed (p : SetFloorParams) (v : Settings) : Nat := numOr 0 4 (byteNum p.chairReserve) v.chairReserve

/-- The settings after the record: values clamped to their ranges, then the reserve held at or below the floor limit minus 1
(R180 steps 2 and 3). -/
def SetFloorParams.apply (p : SetFloorParams) (v : Settings) : Settings where
  mode := codeOr modeOfCode p.mode v.mode
  floorLimit := p.limitAfter v
  chairReserve := min (p.reserveNamed v) (p.limitAfter v - 1)
  policy := codeOr policyOfCode p.policy v.policy
  discipline := codeOr disciplineOfCode p.discipline v.discipline
  confirm := codeOr boolOfCode p.confirm v.confirm
  confirmWindow := numOr 1 600 (halfNum p.confirmWindow) v.confirmWindow
  pressAsConfirm := codeOr boolOfCode p.pressAsConfirm v.pressAsConfirm
  secondPressCancels := codeOr boolOfCode p.secondPressCancels v.secondPressCancels
  priorityAction := codeOr priorityOfCode p.priorityAction v.priorityAction
  nomAttenuation := codeOr boolOfCode p.nomAttenuation v.nomAttenuation
  levelMonitor := codeOr boolOfCode p.levelMonitor v.levelMonitor
  windowExponent := numOr 8 12 (byteNum p.windowExponent) v.windowExponent
  gateThreshold := numOr 0 32767 (halfNum p.gateThreshold) v.gateThreshold
  releaseThreshold := numOr 0 32767 (halfNum p.releaseThreshold) v.releaseThreshold
  silenceCountSetting := numOr 1 255 (byteNum p.silenceCountSetting) v.silenceCountSetting
  warnLead := numOr 0 300 (halfNum p.warnLead) v.warnLead
  retryLimit := numOr 1 15 (byteNum p.retryLimit) v.retryLimit
  silenceLimit := numOr 0 255 (byteNum p.silenceLimit) v.silenceLimit
  autoCensus := codeOr boolOfCode p.autoCensus v.autoCensus

/-- Whether step 2 or step 3 of R180 held a value to its range (R180 step 4). -/
def SetFloorParams.clamped (p : SetFloorParams) (v : Settings) : Bool :=
  numClamped 1 12 (byteNum p.floorLimit) || numClamped 0 4 (byteNum p.chairReserve) || numClamped 1 600 (halfNum p.confirmWindow)
    || numClamped 8 12 (byteNum p.windowExponent) || numClamped 0 32767 (halfNum p.gateThreshold)
    || numClamped 0 32767 (halfNum p.releaseThreshold) || numClamped 1 255 (byteNum p.silenceCountSetting)
    || numClamped 0 300 (halfNum p.warnLead) || numClamped 1 15 (byteNum p.retryLimit) || decide (p.limitAfter v - 1 < p.reserveNamed v)

end Sys2Proof
end

