-- ==== Sys2Proof/Machine/Seating.lean ====
section
/-! DEFINITION. Seats, classes and zones: LOAD_SEAT, READ_SEAT, SET_CLASS, READ_CLASS, SET_ZONE, READ_ZONE (R9-R21, R183). -/

namespace Sys2Proof.Machine

/-! ### Seat-code fields (R1) -/

/-- A field that must name one seat: the seat, or the status that refuses it (R1). -/
def seatOrRefusal (code : BitVec 16) : Except Status Seat :=
  if maxSeatCode < code.toNat then .error .badField
  else
    match seatOfCode code.toNat with
    | some seat => .ok seat
    | none => .error .noSeat

/-- Run a request on the seat its code names, or refuse it (R1). -/
def onSeat (code : BitVec 16) (body : Seat → State → Answer) (s : State) : Answer :=
  match seatOrRefusal code with
  | .error status => Answer.refuse status s
  | .ok seat => body seat s

/-! ### The chair limit (R9) -/

/-- The number of seat records whose class is of kind CHAIR (R9). -/
def Stb.chairCount (stb : Stb) : Nat := stb.seats.toList.countP fun r => (vget stb.classes r.cls).kind = .chair

/-- The chair limit refuses a change of the Seat Table (R9). -/
def chairLimitFails (old new : Stb) : Bool := decide (Config.chairCapacity < new.chairCount) && decide (old.chairCount < new.chairCount)

/-- Replace the Seat Table. -/
def State.setStb (stb : Stb) (s : State) : State := { s with stb := stb }

/-- A record applied with a clamp is answered CLAMPED, otherwise OK (R10). -/
def clampStatus (clamped : Bool) : Status := if clamped then .clamped else .ok

/-- What a change of a seat's enabled field or kind does to the seat on the floor (R12, R19). -/
inductive FloorEffect where
  | none | barred | chairToDelegate
  deriving DecidableEq, Repr

/-- Apply the effect to a seat. -/
def State.applyEffect (s : State) (e : FloorEffect × Seat) : State :=
  match e.1 with
  | .none => s
  | .barred => s.clearBarred e.2
  | .chairToDelegate => s.clearChair e.2

/-- Apply effects in ascending seat-code order, then any change of a member's level, then one rise or fall (R4, R11, R117, R122; log
entries 15 and 16). -/
def State.applyEffects (effects : List (FloorEffect × Seat)) (s : State) : State :=
  ((effects.foldl State.applyEffect s).levelChanged).holdChanged s.far.holdLevel

/-! ### LOAD_SEAT (R18, R19) -/

/-- A seat of the range would move to another class (R18, R183). -/
def State.loadMoves (s : State) (p : LoadSeatParams) : Bool :=
  p.range.any fun seat => (p.apply (s.seatRec seat)).cls ≠ (s.seatRec seat).cls

/-- The effect of the record on one seat (R19). -/
def State.loadEffect (s : State) (p : LoadSeatParams) (seat : Seat) : FloorEffect :=
  let old := s.seatRec seat
  let new := p.apply old
  let moved : Bool := new.cls ≠ old.cls
  let newKind := (vget s.stb.classes new.cls).kind
  if (old.enabled && !new.enabled) || (moved && newKind = .listener) then .barred
  else if moved && (vget s.stb.classes old.cls).kind = .chair && newKind = .delegate then .chairToDelegate
  else .none

/-- LOAD_SEAT applied (R18, R19). -/
def State.loadSeats (p : LoadSeatParams) (s : State) : State :=
  ((s.setStb (p.stbAfter s.stb)).applyEffects (p.range.map fun seat => (s.loadEffect p seat, seat))).settle

/-- LOAD_SEAT: checks of R10 and R18 in order, then the whole range (R18). -/
def loadSeatBody (p : LoadSeatParams) (s : State) : Answer :=
  if !p.fieldsOk then Answer.refuse .badField s
  else if !p.seatsOk then Answer.refuse .noSeat s
  else if p.empty then ⟨s, .ok, u16 0⟩
  else if s.mge.sittingOpen && s.loadMoves p then Answer.refuse .locked s
  else if chairLimitFails s.stb (p.stbAfter s.stb) then Answer.refuse .full s
  else ⟨s.loadSeats p, clampStatus p.clamped, u16 p.range.length⟩

/-- LOAD_SEAT. -/
def execLoadSeat (p : LoadSeatParams) (s : State) : Host.Outcome State Fault Refusal :=
  .next (s.runRecord (.loadSeat p) 0x01 (loadSeatBody p))

/-! ### READ_SEAT (R21) -/

/-- The zone code of a reply: 8 stands for zone G. -/
def zoneCode (z : Option (Fin 8)) : Nat :=
  match z with
  | some z => z.val
  | none => 8

/-- The channel a seat holds, or on which it is successor. -/
def State.channelOf (s : State) (seat : Seat) : Option (Fin 12) := (s.chanOf seat).or (s.successorChan seat)

/-- The record of READ_SEAT, in the order of its table (R21). -/
def State.seatFields (s : State) (seat : Seat) : List Byte :=
  let r := s.seatRec seat
  seatField seat ++ u8 r.availability.code ++ flagByte r.enabled ++ u8 r.cls ++ u8 (s.kindOf seat).code ++ u8 (zoneCode (s.zoneOf seat))
    ++ s8 r.trim ++ optU16 r.override ++ optU8 (r.confirmKey.map Bool.toNat) ++ optU8 (r.lastSerial.map Fin.val)
    ++ u8 (s.floorState seat).code ++ optU8 ((s.channelOf seat).map Fin.val) ++ optU8 (s.listIndex seat)
    ++ flagByte (seat ∈ s.far.holdSet) ++ flagByte (s.far.holder = some seat) ++ u16 r.grants ++ u24 r.speakingTotal

/-- READ_SEAT (R21). -/
def readSeatBody (code : BitVec 16) (s : State) : Answer := onSeat code (fun seat s => ⟨s, .ok, s.seatFields seat⟩) s

/-- READ_SEAT. -/
def execReadSeat (code : BitVec 16) (s : State) : Host.Outcome State Fault Refusal :=
  .next (s.runRecord (.readSeat code) 0x02 (readSeatBody code))

/-! ### SET_CLASS (R11, R12) -/

/-- The Seat Table with one class record replaced. -/
def Stb.setClass (n : Fin 8) (r : ClassRec) (stb : Stb) : Stb := { stb with classes := vset stb.classes n r }

/-- The seats of a class, ascending. -/
def State.seatsOfClass (s : State) (n : Fin 8) : List Seat := allSeats.filter fun seat => (s.seatRec seat).cls = n

/-- The effect of a change of kind on each seat of the class (R12). -/
def kindEffect (old new : ClassKind) : FloorEffect :=
  match old, new with
  | .delegate, .listener | .chair, .listener => .barred
  | .chair, .delegate => .chairToDelegate
  | .delegate, .delegate | .delegate, .chair | .chair, .chair | .listener, _ => .none

/-- SET_CLASS applied (R11, R12). -/
def State.setClassRec (n : Fin 8) (r : ClassRec) (s : State) : State :=
  ((s.setStb (s.stb.setClass n r)).applyEffects
    ((s.seatsOfClass n).map fun seat => (kindEffect (vget s.stb.classes n).kind r.kind, seat))).settle

/-- The fields of a class record in the order of R7. -/
def ClassRec.fields (r : ClassRec) : List Byte :=
  u8 r.kind.code ++ u8 r.level ++ u8 r.group.code ++ u16 r.allowance ++ u8 r.action.code ++ s8 r.offset ++ flagByte r.silenceRelease
    ++ flagByte r.replaceable

/-- SET_CLASS: checks of R10 in order, then the change (R11). -/
def setClassBody (p : SetClassParams) (s : State) : Answer :=
  match finOfByte 8 p.cls with
  | none => Answer.refuse .badField s
  | some n =>
    let old := vget s.stb.classes n
    let new := p.apply old
    if !p.codesOk then Answer.refuse .badField s
    else if s.mge.sittingOpen && classLocked old new then Answer.refuse .locked s
    else if chairLimitFails s.stb (s.stb.setClass n new) then Answer.refuse .full s
    else ⟨s.setClassRec n new, clampStatus p.clamped, new.fields⟩

/-- SET_CLASS. -/
def execSetClass (p : SetClassParams) (s : State) : Host.Outcome State Fault Refusal :=
  .next (s.runRecord (.setClass p) 0x03 (setClassBody p))

/-! ### READ_CLASS (R13) -/

/-- The member count of a class (R13). -/
def Stb.memberCount (stb : Stb) (n : Fin 8) : Nat := stb.seats.toList.countP fun r => r.cls = n

/-- READ_CLASS (R13). -/
def readClassBody (cls : Byte) (s : State) : Answer :=
  match finOfByte 8 cls with
  | none => Answer.refuse .badField s
  | some n => ⟨s, .ok, (vget s.stb.classes n).fields ++ u16 (s.stb.memberCount n)⟩

/-- READ_CLASS. -/
def execReadClass (cls : Byte) (s : State) : Host.Outcome State Fault Refusal :=
  .next (s.runRecord (.readClass cls) 0x04 (readClassBody cls))

/-! ### SET_ZONE and READ_ZONE (R16, R17) -/

/-- The Seat Table with one window replaced. -/
def Stb.setZone (n : Fin 8) (z : ZoneRec) (stb : Stb) : Stb := { stb with zones := vset stb.zones n z }

/-- The fields of a window in the order of R14. -/
def ZoneRec.fields (z : ZoneRec) : List Byte := flagByte z.enabled ++ u16 z.base ++ u16 z.limit ++ u8 z.cap

/-- SET_ZONE: it moves and closes no channel and makes no trigger (R16). -/
def setZoneBody (p : SetZoneParams) (s : State) : Answer :=
  match finOfByte 8 p.zone with
  | none => Answer.refuse .badField s
  | some n =>
    let new := p.apply (vget s.stb.zones n)
    if !p.fieldsOk then Answer.refuse .badField s
    else if s.mge.sittingOpen && !p.empty then Answer.refuse .locked s
    else ⟨s.setStb (s.stb.setZone n new), clampStatus (numClamped 0 12 (byteNum p.cap)), new.fields⟩

/-- SET_ZONE. -/
def execSetZone (p : SetZoneParams) (s : State) : Host.Outcome State Fault Refusal :=
  .next (s.runRecord (.setZone p) 0x05 (setZoneBody p))

/-- The number of valid seat codes that resolve to a zone (R17). -/
def State.zoneSeats (s : State) (z : Option (Fin 8)) : Nat := allSeats.countP fun seat => s.zoneOf seat = z

/-- The counts READ_ZONE carries for any zone. -/
def State.zoneCounts (s : State) (z : Option (Fin 8)) : List Byte := u8 (s.zoneCount none z) ++ u16 (s.zoneSeats z)

/-- READ_ZONE; 8 names zone G (R17). -/
def readZoneBody (zone : Byte) (s : State) : Answer :=
  match finOfByte 8 zone with
  | some n => ⟨s, .ok, (vget s.stb.zones n).fields ++ s.zoneCounts (some n)⟩
  | none => if zone = 8 then ⟨s, .ok, s.zoneCounts none⟩ else Answer.refuse .badField s

/-- READ_ZONE. -/
def execReadZone (zone : Byte) (s : State) : Host.Outcome State Fault Refusal :=
  .next (s.runRecord (.readZone zone) 0x06 (readZoneBody zone))

end Sys2Proof.Machine
end

