-- ==== Sys2Proof/Machine/FloorRecords.lean ====
section
/-! DEFINITION. Records on the floor, the list, list control and the mixer: CLOSE to READ_MIX (R67, R68, R71, R92-R95, R111-R113, R126,
R129, R130, R162). -/

namespace Sys2Proof.Machine

/-! ### CLOSE and CLOSE_ALL (R67, R68) -/

/-- CLOSE acts by the seat's floor state (R67). -/
def State.closeNamed (seat : Seat) (s : State) : State :=
  match s.floorState seat with
  | .offered | .opening | .opened | .held => s.closeSeat seat .controller
  | .succeeding => s.dropSuccession seat
  | .idle | .waiting | .closing => s

/-- CLOSE on a seat (R67). -/
def closeSeatBody (seat : Seat) (s : State) : Answer :=
  if s.floorState seat = .idle ∨ s.floorState seat = .waiting then Answer.refuse .state s
  else
    let s1 := (s.closeNamed seat).settle
    ⟨s1, .ok, optU8 ((s.channelOf seat).map Fin.val) ++ u8 (s1.floorState seat).code⟩

/-- CLOSE. -/
def execClose (code : BitVec 16) (s : State) : Host.Outcome State Fault Refusal :=
  .next (s.runRecord (.close code) 0x20 (onSeat code closeSeatBody))

/-- One channel of CLOSE_ALL or of CLOSE_SITTING: an offer ends with the given removal cause, a close request is made, or a closing
channel loses its successor (R68, R185 step 1). -/
def State.closeEach (removal : RemovalCause) (cause : CloseCause) (s : State) (c : Fin 12) : State :=
  match (s.chan c).state, (s.chan c).seat with
  | .offered, some seat => s.endOffer seat removal cause true
  | .offered, none | .opening, _ | .opened, _ | .held, _ => s.closeRequest c cause
  | .closing, _ => s.modChan c fun ch => { ch with successor := none }
  | .free, _ => s

/-- The channels not FREE, ascending. -/
def State.busyChans (s : State) : List (Fin 12) := allChans.filter fun c => (s.chan c).state ≠ .free

/-- CLOSE_ALL (R68). Offers end in ascending channel number, as R68 has it, and not in list order, as R78 has several removals (DESIGN CHOICE,
log entry 30). -/
def closeAllBody (s : State) : Answer :=
  ⟨(s.busyChans.foldl (State.closeEach .cancelled .closeAll) s).settle, .ok, u8 s.busyChans.length⟩

/-- CLOSE_ALL. -/
def execCloseAll (s : State) : Host.Outcome State Fault Refusal := .next (s.runRecord .closeAll 0x21 closeAllBody)

/-! ### READ_CHANNELS (R71) -/

/-- A channel record of READ_CHANNELS (R71). -/
def State.chanFields (s : State) (c : Fin 12) : List Byte :=
  let ch := s.chan c
  let m := s.slmOf c
  u8 ch.state.code ++ seatField ch.seat ++ optU8 (ch.slot.map Fin.val) ++ optU8 (ch.level.map Fin.val) ++ optU8 (ch.kind.map ClassKind.code)
    ++ optU8 (ch.cause.map OpeningCause.code) ++ seatField ch.successor ++ optU8 (ch.closeCause.map CloseCause.code)
    ++ u24 (if ch.state = .free then 0 else min 36000 m.clock) ++ flagByte m.warned ++ flagByte m.overrun ++ flagByte m.gateActive
    ++ optU16 m.level

/-- The record of READ_CHANNELS (R71; log entry 12). -/
def State.floorFields (s : State) : List Byte :=
  s.far.openSeq.flatMap (fun c => u8 c) ++ u8 (s.inUse none) ++ u8 (s.delegatesInUse none) ++ u8 s.far.holdLevel
    ++ allChans.flatMap s.chanFields

/-- READ_CHANNELS (R71). -/
def readChannelsBody (s : State) : Answer := ⟨s, .ok, s.floorFields⟩

/-- READ_CHANNELS. -/
def execReadChannels (s : State) : Host.Outcome State Fault Refusal := .next (s.runRecord .readChannels 0x22 readChannelsBody)

/-! ### List records (R92 to R95, R126) -/

/-- A chair holds list control (R126). -/
def State.chairControls (s : State) : Bool := s.far.holder.isSome

/-- A record gated by list control (R126). The NOT_OWNER reply of CLAIM_LIST carries no list-control record: R170 is read before the unqualified
"the reply carries" of R129 (DESIGN CHOICE, log entry 31). -/
def gated (body : State → Answer) (s : State) : Answer := if s.chairControls then Answer.refuse .notOwner s else body s

/-- The number of chair entries (R92). -/
def State.chairEntries (s : State) : Nat := s.far.list.countP fun e => e.kind = .chair

/-- The index an INSERT_REQUEST uses (R92). -/
def State.indexUsed (s : State) (seat : Seat) (index : Nat) : Nat :=
  match s.kindOf seat with
  | .chair => min index s.chairEntries
  | .delegate | .listener => max s.chairEntries (min index s.far.list.length)

/-- Step 5 of R92: the seat is PRESENT, enabled, no LISTENER, on a trunk that is UP. -/
def State.mayWait (s : State) (seat : Seat) : Bool :=
  (s.seatRec seat).availability = .present && (s.seatRec seat).enabled && s.kindOf seat ≠ .listener && (s.tpc seat.trunk).link = .up

/-- INSERT_REQUEST after its checks 1 to 3 (R92). -/
def insertSeatBody (index : Byte) (seat : Seat) (s : State) : Answer :=
  if s.floorState seat ≠ .idle then Answer.refuse .state s
  else if !s.mayWait seat then Answer.refuse .state s
  else if Config.listCapacity ≤ s.far.list.length then Answer.refuse .full (s.setFlag .queueFull)
  else
    let used := s.indexUsed seat index.toNat
    ⟨(s.insertAt seat .controller used).settle, clampStatus (used ≠ index.toNat), u8 used⟩

/-- INSERT_REQUEST. -/
def execInsertRequest (code : BitVec 16) (index : Byte) (s : State) : Host.Outcome State Fault Refusal :=
  .next (s.runRecord (.insertRequest code index) 0x23 (onSeat code fun seat => gated (insertSeatBody index seat)))

/-- CANCEL_REQUEST after its checks 1 to 3 (R93). -/
def cancelSeatBody (seat : Seat) (s : State) : Answer :=
  match s.entryOf seat, s.listIndex seat with
  | some e, some i =>
    let s1 := match e.state with
      | .waiting => s.listRemove seat .cancelled
      | .offered => s.endOffer seat .cancelled .controller true
    ⟨s1.settle, .ok, u8 i⟩
  | _, _ => Answer.refuse .state s

/-- CANCEL_REQUEST. -/
def execCancelRequest (code : BitVec 16) (s : State) : Host.Outcome State Fault Refusal :=
  .next (s.runRecord (.cancelRequest code) 0x24 (onSeat code fun seat => gated (cancelSeatBody seat)))

/-- CLEAR_LIST (R94). -/
def clearListBody (s : State) : Answer := ⟨s.clearWholeList.settle, .ok, u8 s.far.list.length⟩

/-- CLEAR_LIST. -/
def execClearList (s : State) : Host.Outcome State Fault Refusal := .next (s.runRecord .clearList 0x25 (gated clearListBody))

/-- An entry record of READ_LIST: the channel is that of its offer (R95). -/
def State.entryFields (s : State) (index : Nat) (e : Entry) : List Byte :=
  u8 index ++ seatField e.seat ++ u8 e.kind.code ++ u8 e.level ++ u8 e.group.code ++ u8 e.origin.code ++ u8 e.state.code
    ++ optU8 (if e.state = .offered then (s.chanOf e.seat).map Fin.val else none) ++ optU16 e.deadline

/-- Entry records of a slice, with their indices. -/
def State.sliceFields (s : State) : Nat → List Entry → List Byte
  | _, [] => []
  | i, e :: l => s.entryFields i e ++ s.sliceFields (i + 1) l

/-- READ_LIST (R95). -/
def readListBody (first count : Byte) (s : State) : Answer :=
  if 63 < first.toNat ∨ count = 0 then Answer.refuse .badField s
  else
    ⟨s, clampStatus (8 < count.toNat),
      u8 s.far.list.length ++ u8 s.chairEntries ++ u8 (s.far.list.countP fun e => e.state = .offered) ++ u8 s.mge.settings.discipline.code
        ++ u8 first.toNat ++ s.sliceFields first.toNat ((s.far.list.drop first.toNat).take (min 8 count.toNat))⟩

/-- READ_LIST. -/
def execReadList (first count : Byte) (s : State) : Host.Outcome State Fault Refusal :=
  .next (s.runRecord (.readList first count) 0x26 (readListBody first count))

/-! ### NEXT and GRANT (R111 to R113) -/

/-- The fields of a NEXT reply; the code of its outcome is a free value (R111; log entry 11). -/
def State.nextFields (s : State) (seat : Seat) (offered : Bool) : List Byte :=
  seatField seat ++ optU8 ((s.chanOf seat).map Fin.val) ++ optU8 (((s.chanOf seat).bind fun c => (s.chan c).slot).map Fin.val)
    ++ [Config.nextOutcomeCode offered]

/-- NEXT (R111). -/
def nextBody (s : State) : Answer :=
  match s.nextPromotable with
  | some seat =>
    let s1 := s.promote seat
    ⟨s1.settle, .ok, s1.nextFields seat s.mge.settings.confirm⟩
  | none => Answer.refuse .none s

/-- NEXT. -/
def execNext (s : State) : Host.Outcome State Fault Refusal := .next (s.runRecord .next 0x27 (gated nextBody))

/-- Step 4 of R112: IDLE, WAITING, or CLOSING with its CLOSE unsent and no command in flight. -/
def State.grantable (s : State) (seat : Seat) : Bool :=
  match s.floorState seat with
  | .idle | .waiting => true
  | .closing => s.unsent seat = some .close && (s.inFlightFor seat).isNone
  | .offered | .opening | .opened | .held | .succeeding => false

/-- A GRANT carried out (R113). -/
def State.grantSeat (seat : Seat) (s : State) : State := (s.listRemove seat .opened).allocate seat .grant

/-- GRANT after its checks 1 to 3 (R112, R113). -/
def grantBody (seat : Seat) (s : State) : Answer :=
  if !s.grantable seat then Answer.refuse .state s
  else if !s.seatConditions seat then Answer.refuse .state s
  else if !s.roomConditions none seat then Answer.refuse .full s
  else ⟨(s.grantSeat seat).settle, .ok, optU8 (s.freeChan.map Fin.val) ++ optU8 ((s.freeSlot none seat.trunk).map Fin.val)⟩

/-- GRANT. -/
def execGrant (code : BitVec 16) (s : State) : Host.Outcome State Fault Refusal :=
  .next (s.runRecord (.grant code) 0x28 (onSeat code fun seat => gated (grantBody seat)))

/-! ### List control (R129, R130) -/

/-- The list-control record of a reply (R125). -/
def State.listFields (s : State) : List Byte := flagByte s.far.claimed ++ seatField s.far.holder ++ flagByte s.far.forceReturn

/-- The claim takes a value; LIST_CONTROL on a change (R129). -/
def State.setClaim (claimed : Bool) (s : State) : State :=
  if s.far.claimed = claimed then s else (s.modFar fun f => { f with claimed := claimed }).notifyList

/-- CLAIM_LIST (R129). -/
def claimListBody (s : State) : Answer := ⟨s.setClaim true, .ok, (s.setClaim true).listFields⟩

/-- CLAIM_LIST. -/
def execClaimList (s : State) : Host.Outcome State Fault Refusal := .next (s.runRecord .claimList 0x30 (gated claimListBody))

/-- YIELD_LIST (R129). -/
def yieldListBody (s : State) : Answer := ⟨s.setClaim false, .ok, (s.setClaim false).listFields⟩

/-- YIELD_LIST. -/
def execYieldList (s : State) : Host.Outcome State Fault Refusal := .next (s.runRecord .yieldList 0x31 yieldListBody)

/-- FORCE_LIST on: force-return set, a holder cleared and told, one notice when anything changed (R130). -/
def State.forceOn (s : State) : State :=
  let s1 := s.modFar fun f => { f with forceReturn := true, holder := none }
  match s.far.holder with
  | some seat => (s1.place seat (.listState false)).notifyList
  | none => if s.far.forceReturn then s1 else s1.notifyList

/-- FORCE_LIST off (R130). -/
def State.forceOff (s : State) : State :=
  if s.far.forceReturn then (s.modFar fun f => { f with forceReturn := false }).notifyList else s

/-- FORCE_LIST (R130); a BAD_FIELD reply carries no list-control record (DESIGN CHOICE, log entry 31). -/
def forceListBody (field : Byte) (s : State) : Answer :=
  match boolOfCode field with
  | none => Answer.refuse .badField s
  | some true => ⟨s.forceOn, .ok, s.forceOn.listFields⟩
  | some false => ⟨s.forceOff, .ok, s.forceOff.listFields⟩

/-- FORCE_LIST. -/
def execForceList (field : Byte) (s : State) : Host.Outcome State Fault Refusal :=
  .next (s.runRecord (.forceList field) 0x32 (forceListBody field))

/-! ### READ_MIX (R162) -/

/-- A channel record of READ_MIX (R162). -/
def State.mixChanFields (s : State) (c : Fin 12) : List Byte :=
  let m := s.fmxOf c
  u8 (s.chan c).state.code ++ flagByte m.mixed ++ flagByte m.gateCounted ++ optS8 m.mixGain ++ optS8 m.slotGain ++ s16 m.slotSample

/-- The record of READ_MIX (R162). -/
def State.mixFields (s : State) : List Byte :=
  flagByte s.mge.settings.nomAttenuation ++ u8 s.fmx.nomCount ++ u8 s.fmx.attenuation ++ s16 s.fmx.mixSample ++ flagByte s.fmx.clipped
    ++ allChans.flatMap s.mixChanFields

/-- READ_MIX (R162). -/
def readMixBody (s : State) : Answer := ⟨s, .ok, s.mixFields⟩

/-- READ_MIX. -/
def execReadMix (s : State) : Host.Outcome State Fault Refusal := .next (s.runRecord .readMix 0x38 readMixBody)

end Sys2Proof.Machine
end

