-- ==== Sys2Proof/Machine/HallCommands.lean ====
section
/-! DEFINITION. The commands of the hall link (R164-R167, R178). During the start-up hold no frame is taken or sent (R191). -/

namespace Sys2Proof.Machine

/-- HALL_FRAME_VALID with the bytes received; HLI classes them (R165; log entry 2). -/
def execHallFrameValid (frame : List Byte) (s : State) : Host.Outcome State Fault Refusal :=
  .next (if s.running then s.receiveHall frame else s)

/-- HALL_FRAME_INVALID with the bytes received; HLI classes them (R165; log entry 2). -/
def execHallFrameInvalid (frame : List Byte) (s : State) : Host.Outcome State Fault Refusal :=
  .next (if s.running then s.receiveHall frame else s)

/-- HALL_FRAME_MISSING (R164). -/
def execHallFrameMissing (s : State) : Host.Outcome State Fault Refusal := .next (if s.running then s.hallBad else s)

/-- A valid frame now would bring the link UP (R164). -/
def State.hallAboutUp (s : State) (frame : List Byte) : Bool :=
  s.running && s.hli.link = .aligning && s.hli.validRun + 1 = Config.hallUpRun && hallFrameOk frame

/-- HALL_LINK_UP: the valid frame that brings valid run to 32; otherwise no such event (R164; log entry 1). -/
def execHallLinkUp (frame : List Byte) (s : State) : Host.Outcome State Fault Refusal :=
  .next (if s.hallAboutUp frame then s.hallValid frame else s)

/-- A bad frame time now would bring bad run to 8 in a link state (R164). -/
def State.hallAboutDown (s : State) (link : HallState) : Bool :=
  s.running && s.hli.link = link && s.hli.badRun + 1 = Config.badRunLimit

/-- HALL_LINK_LOST: the bad frame time that brings bad run to 8 while UP; otherwise no such event (R164, R178; log entry 1). -/
def execHallLinkLost (s : State) : Host.Outcome State Fault Refusal := .next (if s.hallAboutDown .up then s.hallBad else s)

/-- HALL_ALIGN_FAIL: the bad frame time that brings bad run to 8 while ALIGNING; otherwise no such event (R164; log entry 1). -/
def execHallAlignFail (s : State) : Host.Outcome State Fault Refusal := .next (if s.hallAboutDown .aligning then s.hallBad else s)

/-- HALL_FRAME_SEND (R166). -/
def execHallFrameSend (s : State) : Host.Outcome State Fault Refusal := .next (if s.running then s.sendHall else s)

end Sys2Proof.Machine
end

