-- ==== Sys2Proof/Machine/Management.lean ====
section
/-! DEFINITION. MGE's and HLI's own records: UNKNOWN_RECORD, BATCH, SET_NOTICES, SET_FLOOR to READ_IDENT (R170-R174, R180-R192). -/

namespace Sys2Proof.Machine

/-! ### Unknown records and batches (R170, R172) -/

/-- A record of unknown kind has no effect (R170). -/
def unknownBody (s : State) : Answer := Answer.refuse .unknown s

/-- UNKNOWN_RECORD: answered UNKNOWN when table 11.5 does not list the kind; a listed kind is no unknown record, and the
command has no effect (R170; DESIGN CHOICE, log entry 33). -/
def execUnknownRecord (kind : Byte) (s : State) : Host.Outcome State Fault Refusal :=
  .next (if (recordLength kind).isNone then s.runRecord (.unknownRecord kind) kind unknownBody else s)

/-- BATCH (R172). -/
def batchBody (n : Byte) (s : State) : Answer :=
  if s.mge.batch.isSome then Answer.refuse .nested s
  else if n = 0 then Answer.refuse .badField s
  else ⟨s.modMge fun m => { m with batch := some (min 7 n.toNat) }, clampStatus (7 < n.toNat), []⟩

/-- BATCH. -/
def execBatch (n : Byte) (s : State) : Host.Outcome State Fault Refusal := .next (s.runRecord (.batch n) 0x40 (batchBody n))

/-! ### Masks (R174, R188) -/

/-- SET_NOTICES (R174). -/
def setNoticesBody (enables : Vector Byte 14) (s : State) : Answer :=
  match maskOfEnables enables with
  | none => Answer.refuse .badField s
  | some w => ⟨s.modHli fun h => { h with noticeMask := w }, .ok, enablesOfMask w⟩

/-- SET_NOTICES. -/
def execSetNotices (enables : Vector Byte 14) (s : State) : Host.Outcome State Fault Refusal :=
  .next (s.runRecord (.setNotices enables) 0x41 (setNoticesBody enables))

/-- SET_REPORT (R188). -/
def setReportBody (enables : Vector Byte 14) (s : State) : Answer :=
  match maskOfEnables enables with
  | none => Answer.refuse .badField s
  | some w => ⟨s.modMge fun m => { m with reportMask := w }, .ok, enablesOfMask w⟩

/-- SET_REPORT. -/
def execSetReport (enables : Vector Byte 14) (s : State) : Host.Outcome State Fault Refusal :=
  .next (s.runRecord (.setReport enables) 0x56 (setReportBody enables))

/-! ### Floor settings (R180 to R182) -/

/-- The settings record in the order of R180. -/
def Settings.fields (v : Settings) : List Byte :=
  u8 v.mode.code ++ u8 v.floorLimit ++ u8 v.chairReserve ++ u8 v.policy.code ++ u8 v.discipline.code ++ flagByte v.confirm
    ++ u16 v.confirmWindow ++ flagByte v.pressAsConfirm ++ flagByte v.secondPressCancels ++ u8 v.priorityAction.code
    ++ flagByte v.nomAttenuation ++ flagByte v.levelMonitor ++ u8 v.windowExponent ++ u16 v.gateThreshold ++ u16 v.releaseThreshold
    ++ u8 v.silenceCountSetting ++ u16 v.warnLead ++ u8 v.retryLimit ++ u8 v.silenceLimit ++ flagByte v.autoCensus

/-- The change of settings makes a promotion trigger (R181 step 2). -/
def Settings.triggers (old new : Settings) : Bool :=
  old.mode ≠ new.mode || old.floorLimit ≠ new.floorLimit || decide (new.chairReserve < old.chairReserve)

/-- The settings take their new values, then the level monitor's change and the trigger follow (R181). -/
def State.setSettings (new : Settings) (s : State) : State :=
  let s1 := s.modMge fun m => { m with settings := new }
  let s2 := if s.mge.settings.levelMonitor = new.levelMonitor then s1 else s1.monitorChanged new.levelMonitor
  if s.mge.settings.triggers new then s2.trigger else s2

/-- SET_FLOOR (R180, R181). -/
def setFloorBody (p : SetFloorParams) (s : State) : Answer :=
  if !p.codesOk then Answer.refuse .badField s
  else
    let new := p.apply s.mge.settings
    ⟨(s.setSettings new).settle, clampStatus (p.clamped s.mge.settings), new.fields⟩

/-- SET_FLOOR. -/
def execSetFloor (p : SetFloorParams) (s : State) : Host.Outcome State Fault Refusal :=
  .next (s.runRecord (.setFloor p) 0x50 (setFloorBody p))

/-- READ_SETTINGS (R182). -/
def readSettingsBody (s : State) : Answer := ⟨s, .ok, s.mge.settings.fields⟩

/-- READ_SETTINGS. -/
def execReadSettings (s : State) : Host.Outcome State Fault Refusal := .next (s.runRecord .readSettings 0x51 readSettingsBody)

/-! ### The sitting (R184, R185) -/

/-- The counts kept over a sitting become 0 (R184 steps 2 and 3). -/
def State.zeroCounts (s : State) : State :=
  State.modMge (fun m => { m with refused := 0, lapsed := 0 })
    (s.setStb { s.stb with seats := s.stb.seats.map fun r => { r with grants := 0, speakingTotal := 0 } })

/-- OPEN_SITTING (R184). -/
def openSittingBody (s : State) : Answer :=
  if s.mge.sittingOpen then Answer.refuse .state s else ⟨s.zeroCounts.modMge fun m => { m with sittingOpen := true }, .ok, []⟩

/-- OPEN_SITTING. -/
def execOpenSitting (s : State) : Host.Outcome State Fault Refusal := .next (s.runRecord .openSitting 0x52 openSittingBody)

/-- Steps 1 and 2 of CLOSE_SITTING: the channels, then the remaining entries from the head (R185). The offers of step 1 end in ascending channel
number, and not in list order, as R78 has several removals (DESIGN CHOICE, log entry 30). -/
def State.endSitting (s : State) : State :=
  let s1 := s.busyChans.foldl (State.closeEach .sitting .sitting) s
  (s1.far.list.map Entry.seat).foldl (fun a seat => a.listRemove seat .sitting) s1

/-- CLOSE_SITTING (R185; log entry 28). -/
def closeSittingBody (s : State) : Answer :=
  if s.mge.sittingOpen then
    ⟨(s.endSitting.modMge fun m => { m with sittingOpen := false }).settle, .ok, u8 s.busyChans.length ++ u8 s.far.list.length⟩
  else Answer.refuse .state s

/-- CLOSE_SITTING. -/
def execCloseSitting (s : State) : Host.Outcome State Fault Refusal := .next (s.runRecord .closeSitting 0x53 closeSittingBody)

/-! ### Status (R187, R189, R190) -/

/-- The status record in the order of R189 (log entry 12). "Replies queued" counts every place of the reply queue, those of packets waiting or
being executed too, where R189 only names R169 (DESIGN CHOICE, log entry 38). -/
def State.statusFields (s : State) : List Byte :=
  flagByte s.hli.attended ++ flagByte s.mge.sittingOpen ++ u8 s.mge.resetCause.code ++ u16 s.mge.flags.toNat
    ++ enablesOfMask s.mge.reportMask ++ u16 s.mge.refused ++ u16 s.mge.lapsed ++ u8 s.mge.noticesLost ++ u8 s.hli.link.code
    ++ allTrunks.flatMap (fun t => u8 (s.tpc t).link.code)
    ++ allTrunks.flatMap (fun t => flagByte (s.tpc t).censusRunning ++ u8 (s.tpc t).censusOutcome.code)
    ++ allTrunks.flatMap (fun t => u8 (s.tpc t).lostLinks ++ u8 (s.tpc t).cmdFailures)
    ++ u8 s.far.holdLevel ++ s.far.holdSet.flatMap (fun seat => seatField seat) ++ s.listFields ++ u8 s.hli.noticeQueue.length
    ++ u8 s.hli.replyQueue.length

/-- READ_STATUS (R189). -/
def readStatusBody (s : State) : Answer := ⟨s, .ok, s.statusFields⟩

/-- READ_STATUS. -/
def execReadStatus (s : State) : Host.Outcome State Fault Refusal := .next (s.runRecord .readStatus 0x54 readStatusBody)

/-- The counters a CLEAR_STATUS mask zeroes (R187). -/
def State.clearCounters (mask : BitVec 16) (s : State) : State :=
  let s1 := if maskNames mask .noticeLost then s.modMge fun m => { m with noticesLost := 0 } else s
  let s2 := if maskNames mask .linkLost then { s1 with trunks := s1.trunks.map fun p => { p with lostLinks := 0 } } else s1
  if maskNames mask .seatLost then { s2 with trunks := s2.trunks.map fun p => { p with cmdFailures := 0 } } else s2

/-- CLEAR_STATUS (R187). -/
def clearStatusBody (mask : BitVec 16) (s : State) : Answer :=
  ⟨(s.clearCounters mask).modMge fun m => { m with flags := flagsClear mask m.flags }, .ok, u16 (flagsClear mask s.mge.flags).toNat⟩

/-- CLEAR_STATUS. -/
def execClearStatus (mask : BitVec 16) (s : State) : Host.Outcome State Fault Refusal :=
  .next (s.runRecord (.clearStatus mask) 0x55 (clearStatusBody mask))

/-- The record of READ_IDENT (R190). -/
def identFields : List Byte := u16 5120 ++ u8 1 ++ u8 12 ++ u8 4 ++ u8 120 ++ u8 64 ++ u8 32 ++ u8 8

/-- READ_IDENT (R190). -/
def readIdentBody (s : State) : Answer := ⟨s, .ok, identFields⟩

/-- READ_IDENT. -/
def execReadIdent (s : State) : Host.Outcome State Fault Refusal := .next (s.runRecord .readIdent 0x58 readIdentBody)

/-! ### RESET_ENGINE (R49, R69, R171, R192) -/

/-- A port at RESET_ENGINE (R49). -/
def Tpc.engineReset (p : Tpc) : Tpc :=
  { p with
    queue := if p.link = .up then [⟨none, .allOff⟩] else []
    inFlight := none
    censusRunning := false
    censusOutcome := if p.censusRunning then .aborted else p.censusOutcome }

/-- MGE at RESET_ENGINE (R192). -/
def Mge.engineReset (m : Mge) : Mge :=
  { m with sittingOpen := false, flags := flagsSet .resetSeen m.flags, resetCause := .command, batch := none }

/-- The engine reset (R192). -/
def State.engineReset (s : State) : State :=
  { s with
    far := Far.reset
    slm := Vector.replicate 12 SlmChan.reset
    fmx := Fmx.reset
    trunks := s.trunks.map Tpc.engineReset
    hli := { s.hli with noticeQueue := [] }
    mge := s.mge.engineReset }

/-- The reply to RESET_ENGINE. -/
def resetReply : ReplyRecord := ⟨0x57, .ok, []⟩

/-- The rest of the resetting packet is answered SKIPPED (R171). -/
def Place.skipRest (p : Place) : Place :=
  { p with
    waiting := []
    answered := p.answered ++ [resetReply] ++ (p.waiting.drop 1).map fun r => ⟨byteAt r 0, .skipped, []⟩ }

/-- RESET_ENGINE in its packet, or as a record of its own (R171, R192). One of its own ends the packet that the records of their own before it stand
for: those after it begin another packet, and are executed, where R192 has the records after it in its packet answered SKIPPED (DESIGN CHOICE, log
entry 3). -/
def State.runReset (s : State) : State :=
  if s.running && s.recordTurn .resetEngine then
    (if s.nextRecord.isSome then (s.setReply resetReply).modHli fun h => { h with replyQueue := modNextPlace Place.skipRest h.replyQueue }
      else s.setReply resetReply).engineReset
  else s

/-- RESET_ENGINE. -/
def execResetEngine (s : State) : Host.Outcome State Fault Refusal := .next s.runReset

end Sys2Proof.Machine
end

