-- ==== Sys2Proof/Machine/Resets.lean ====
section
/-! DEFINITION. Power-on, brown-out and pin reset, and the end of the start-up hold (R191). -/

namespace Sys2Proof.Machine

/-- Every block at its Reset column, in the start-up hold of the cause; the commands still waiting stay in the queue (R191; log entry
27). -/
def State.resetKeepingQueue (cause : ResetCause) (holdMs : Nat) (s : State) : State := { State.resetBy cause holdMs with pending := s.pending }

/-- POWER_ON_RESET. -/
def execPowerOnReset (s : State) : Host.Outcome State Fault Refusal := .next (s.resetKeepingQueue .power Config.longHold)

/-- BROWNOUT_RESET. -/
def execBrownoutReset (s : State) : Host.Outcome State Fault Refusal := .next (s.resetKeepingQueue .brownout Config.longHold)

/-- PIN_RESET. -/
def execPinReset (s : State) : Host.Outcome State Fault Refusal := .next (s.resetKeepingQueue .pin Config.pinHold)

/-- The hold ends: the hall link enters ALIGNING with both runs 0, and the time base counts from 0 (R164, R179, R191). -/
def State.endHold (s : State) : State :=
  { (s.modHli fun h => { h with link := .aligning, validRun := 0, badRun := 0 }) with startUpHold := none }

/-- START_UP_HOLD_END; without a hold in force there is none to end. -/
def execStartUpHoldEnd (s : State) : Host.Outcome State Fault Refusal := .next (if s.running then s else s.endHold)

end Sys2Proof.Machine
end

