-- ==== Sys2Proof/Machine/Mixer.lean ====
section
/-! DEFINITION. The mix computation (chapter 8). -/

namespace Sys2Proof.Machine

/-- The attenuation table of R154: half-dB steps for a count of open microphones. -/
def nomTable (n : Nat) : Nat := [0, 0, 6, 10, 12, 14, 16, 17, 18, 19, 20, 21, 22].getD n 22

/-- The attenuation N (R154). -/
def attenuationFor (nomOn : Bool) (n : Nat) : Nat := if nomOn then nomTable n else 0

/-- The mantissa table of R156. -/
def mantissa (r : Nat) : Nat := [16384, 17355, 18383, 19472, 20626, 21848, 23143, 24514, 25967, 27506, 29135, 30862].getD r 16384

/-- A gain code clamped to -80..+12 (R155). -/
def clampGain (g : Int) : Int := clampInt (-80) 12 g

/-- The multiplier of a gain code: G = 12q + r (R156). -/
def multiplier (g : Int) : Nat :=
  let m := mantissa (g % 12).toNat
  if 0 ≤ g / 12 then m * 2 ^ (g / 12).toNat else m >>> (-(g / 12)).toNat

/-- The product of a sample and a multiplier, rounded half up (R157). -/
def gained (x : Int) (m : Nat) : Int := (x * m + 8192) / 16384

/-- Saturation to 16 bits (R158, R159). -/
def saturate16 (x : Int) : Int := clampInt (-32768) 32767 x

/-- The input sample of a channel: the latest when fresh, else 0 (R153 step 1). -/
def FmxChan.input (m : FmxChan) : Int := if m.fresh then m.latest else 0

/-- The channel counts as an open microphone (R154). -/
def State.micOpen (s : State) (c : Fin 12) : Bool := (s.chan c).state = .opened && (s.slmOf c).gateActive

/-- The count of open microphones n (R154). -/
def State.nomCount (s : State) : Nat := allChans.countP s.micOpen

/-- The mix-path gain code of an OPEN channel (R155). -/
def State.mixGain (s : State) (c : Fin 12) (n : Nat) : Option Int :=
  match (s.chan c).state, (s.chan c).seat with
  | .opened, some seat => some (clampGain ((s.seatRec seat).trim + (s.classOf seat).offset - n))
  | _, _ => none

/-- The slot-path gain code of an OPEN channel (R155). -/
def State.slotGain (s : State) (c : Fin 12) : Option Int :=
  match (s.chan c).state, (s.chan c).seat with
  | .opened, some seat => some (clampGain (s.seatRec seat).trim)
  | _, _ => none

/-- The product of a channel's input and the multiplier of an optional gain code; 0 without one (R156, R157). -/
def gainedBy (x : Int) (g : Option Int) : Int :=
  match g with
  | some g => gained x (multiplier g)
  | none => 0

/-- The attenuation of the computation taken now (R154). -/
def State.attenuationNow (s : State) : Nat := attenuationFor s.mge.settings.nomAttenuation s.nomCount

/-- The sum of the mix-path products (R158). -/
def State.mixSum (s : State) : Int :=
  (allChans.map fun c => gainedBy (s.fmxOf c).input (s.mixGain c s.attenuationNow)).foldl (· + ·) 0

/-- The slot-path product of a channel before saturation (R159). -/
def State.slotProduct (s : State) (c : Fin 12) : Int := gainedBy (s.fmxOf c).input (s.slotGain c)

/-- Whether the computation saturates anything (R160). -/
def State.clips (s : State) : Bool :=
  s.mixSum ≠ saturate16 s.mixSum || allChans.any fun c => s.slotProduct c ≠ saturate16 (s.slotProduct c)

/-- What the computation leaves in a channel (R151, R153, R159, R162). The fresh mark of a FREE channel is cleared with the others, as step 1 of
R153 says of every channel, where R151 has a FREE channel keep the mark it had when it was freed (DESIGN CHOICE, log entry 36). -/
def State.mixedChan (s : State) (c : Fin 12) : FmxChan where
  latest := (s.fmxOf c).latest
  fresh := false
  slotSample := saturate16 (s.slotProduct c)
  mixed := (s.chan c).state = .opened
  gateCounted := s.micOpen c
  mixGain := s.mixGain c s.attenuationNow
  slotGain := s.slotGain c

/-- What the computation leaves in FMX. -/
def State.mixed (s : State) : Fmx where
  chans := Vector.ofFn s.mixedChan
  mixSample := saturate16 s.mixSum
  nomCount := s.nomCount
  attenuation := s.attenuationNow
  clipped := s.clips

/-- One mix computation (R153); a saturation sets CLIP (R160). -/
def State.mixComputation (s : State) : State :=
  if s.clips then State.setFlag .clip { s with fmx := s.mixed } else { s with fmx := s.mixed }

end Sys2Proof.Machine
end

