-- ==== Sys2Proof/Machine/TimeCommands.lean ====
section
/-! DEFINITION. The commands of the mixer, the time base and the level monitor (R84, R136, R140, R141, R147, R148, R153, R177). During the
start-up hold none of them happens (R191). -/

namespace Sys2Proof.Machine

/-- MIX_COMPUTATION, once per hall frame time; the frame time also counts on the time base (R136, R153; log entry 9). At the 1,600th the mix is
taken before the changes of the decisecond expiry, where R153 lets either be taken first (DESIGN CHOICE, log entry 32). -/
def execMixComputation (s : State) : Host.Outcome State Fault Refusal :=
  .next (if s.running then s.mixComputation.frameTick else s)

/-- DECISECOND_EXPIRY (R136). -/
def execDecisecondExpiry (s : State) : Host.Outcome State Fault Refusal := .next (if s.running then s.decisecondExpiry else s)

/-- SECOND_EXPIRY (R136, R177). -/
def execSecondExpiry (s : State) : Host.Outcome State Fault Refusal := .next (if s.running then s.secondExpiry else s)

/-- SPEAK_WARNING on a channel: the warning test of a comparison (R140; log entry 26). -/
def execSpeakWarning (c : Fin 12) (s : State) : Host.Outcome State Fault Refusal := .next (if s.running then s.warnStep c else s)

/-- SPEAK_EXPIRY on a channel: the expiry test of a comparison (R141; log entry 26). -/
def execSpeakExpiry (c : Fin 12) (s : State) : Host.Outcome State Fault Refusal :=
  .next (if s.running then (s.expireStep c).settle else s)

/-- The next decisecond expiry would bring the seat's confirm deadline to 0 (R84). -/
def State.lapseDue (s : State) (seat : Seat) : Bool :=
  match s.entryOf seat with
  | some e =>
    match e.state, e.deadline with
    | .offered, some d => decide (d ≤ 1)
    | .offered, none | .waiting, _ => false
  | none => false

/-- OFFER_LAPSE of a seat whose deadline comes to 0 (R84; log entry 26). -/
def execOfferLapse (seat : Seat) (s : State) : Host.Outcome State Fault Refusal :=
  .next (if s.running ∧ s.lapseDue seat then (s.lapse seat).settle else s)

/-- SILENCE_TIMER_EXPIRY: the timer stands at or past a nonzero limit (R177; log entry 26). -/
def execSilenceTimerExpiry (s : State) : Host.Outcome State Fault Refusal :=
  .next (if s.running ∧ s.silenceDue then s.unattend else s)

/-- One more frame completes the channel's window (R147). -/
def SlmChan.windowDue (m : SlmChan) : Bool :=
  match m.progress, m.exponent with
  | some p, some k => p + 1 = 2 ^ k
  | _, _ => false

/-- LEVEL_WINDOW_COMPLETE: the frame that brings the channel's progress to its length, with its talk slot (R147; log entry 26). -/
def execLevelWindowComplete (c : Fin 12) (slot : Option (BitVec 16)) (s : State) : Host.Outcome State Fault Refusal :=
  .next (if s.running ∧ (s.slmOf c).windowDue then ((s.handSlot c slot).finishWindow c).settle else s)

/-- SILENCE_RELEASE: the release test on a channel, which only a running level monitor makes (R148, R149; log entry 26). -/
def execSilenceRelease (c : Fin 12) (s : State) : Host.Outcome State Fault Refusal :=
  .next (if s.running ∧ s.mge.settings.levelMonitor then (s.silenceStep c).settle else s)

end Sys2Proof.Machine
end

