-- ==== Sys2Proof/Machine/TrunkCommands.lean ====
section
/-! DEFINITION. The commands of the trunk links, the seat events and the completions (R23-R29, R34-R36). During the start-up hold no frame
is taken or sent (R191). -/

namespace Sys2Proof.Machine

/-! ### Frames and link events (R23 to R25) -/

/-- TRUNK_FRAME_GOOD with the bytes received; the TPC classes them (R23; log entry 2). -/
def execTrunkFrameGood (t : Fin 4) (frame : List Byte) (s : State) : Host.Outcome State Fault Refusal :=
  .next (if s.running then s.receiveTrunk t frame else s)

/-- TRUNK_FRAME_MALFORMED with the bytes received; the TPC classes them (R23; log entry 2). -/
def execTrunkFrameMalformed (t : Fin 4) (frame : List Byte) (s : State) : Host.Outcome State Fault Refusal :=
  .next (if s.running then s.receiveTrunk t frame else s)

/-- TRUNK_FRAME_MISSING (R23, R24). -/
def execTrunkFrameMissing (t : Fin 4) (s : State) : Host.Outcome State Fault Refusal :=
  .next (if s.running then (s.trunkBad t).settle else s)

/-- A good frame now would bring the trunk UP (R24). -/
def State.trunkAboutUp (s : State) (t : Fin 4) (frame : List Byte) : Bool :=
  s.running && (s.tpc t).link = .training && (s.tpc t).goodRun + 1 = Config.trunkUpRun && (s.tpc t).goodFrame frame

/-- TRUNK_UP: the good frame that brings good run to 64; otherwise no such event (R24; log entry 1). -/
def execTrunkUp (t : Fin 4) (frame : List Byte) (s : State) : Host.Outcome State Fault Refusal :=
  .next (if s.trunkAboutUp t frame then s.trunkGood t frame else s)

/-- A bad frame time now would bring bad run to 8 in a link state (R24). -/
def State.trunkAboutDown (s : State) (t : Fin 4) (link : LinkState) : Bool :=
  s.running && (s.tpc t).link = link && (s.tpc t).badRun + 1 = Config.badRunLimit

/-- TRUNK_TRAINING_FAIL: the bad frame time that brings bad run to 8 while TRAINING; otherwise no such event (R24; log entry 1). -/
def execTrunkTrainingFail (t : Fin 4) (s : State) : Host.Outcome State Fault Refusal :=
  .next (if s.trunkAboutDown t .training then s.trunkBad t else s)

/-- TRUNK_LINK_LOST: the bad frame time that brings bad run to 8 while UP; otherwise no such event (R24, R46; log entry 1). -/
def execTrunkLinkLost (t : Fin 4) (s : State) : Host.Outcome State Fault Refusal :=
  .next (if s.trunkAboutDown t .up then (s.trunkBad t).settle else s)

/-- TRUNK_FRAME_SEND (R25, R33, R34). -/
def execTrunkFrameSend (t : Fin 4) (s : State) : Host.Outcome State Fault Refusal :=
  .next (if s.running then (s.sendTrunk t).settle else s)

/-! ### Seat events (R26 to R29) -/

/-- HELLO (R5). -/
def execHello (t : Fin 4) (position : Fin 128) (serial : Fin 16) (arg : Byte) (s : State) : Host.Outcome State Fault Refusal :=
  .next (s.seatEvent t position serial .hello arg)

/-- MIC_PRESS (R79). -/
def execMicPress (t : Fin 4) (position : Fin 128) (serial : Fin 16) (arg : Byte) (s : State) : Host.Outcome State Fault Refusal :=
  .next (s.seatEvent t position serial .micPress arg)

/-- CONFIRM (R85). -/
def execConfirm (t : Fin 4) (position : Fin 128) (serial : Fin 16) (arg : Byte) (s : State) : Host.Outcome State Fault Refusal :=
  .next (s.seatEvent t position serial .confirm arg)

/-- PRIORITY_DOWN (R118). -/
def execPriorityDown (t : Fin 4) (position : Fin 128) (serial : Fin 16) (arg : Byte) (s : State) : Host.Outcome State Fault Refusal :=
  .next (s.seatEvent t position serial .priorityDown arg)

/-- PRIORITY_UP (R120). -/
def execPriorityUp (t : Fin 4) (position : Fin 128) (serial : Fin 16) (arg : Byte) (s : State) : Host.Outcome State Fault Refusal :=
  .next (s.seatEvent t position serial .priorityUp arg)

/-- CHAIR_NEXT (R131). -/
def execChairNext (t : Fin 4) (position : Fin 128) (serial : Fin 16) (arg : Byte) (s : State) : Host.Outcome State Fault Refusal :=
  .next (s.seatEvent t position serial .chairNext arg)

/-- CHAIR_CLEAR (R131). -/
def execChairClear (t : Fin 4) (position : Fin 128) (serial : Fin 16) (arg : Byte) (s : State) : Host.Outcome State Fault Refusal :=
  .next (s.seatEvent t position serial .chairClear arg)

/-- TAKE_LIST (R127). -/
def execTakeList (t : Fin 4) (position : Fin 128) (serial : Fin 16) (arg : Byte) (s : State) : Host.Outcome State Fault Refusal :=
  .next (s.seatEvent t position serial .takeList arg)

/-- GIVE_LIST (R128). -/
def execGiveList (t : Fin 4) (position : Fin 128) (serial : Fin 16) (arg : Byte) (s : State) : Host.Outcome State Fault Refusal :=
  .next (s.seatEvent t position serial .giveList arg)

/-! ### Completions (R34 to R36) -/

/-- The command sent to a seat and awaiting its acknowledgement: in flight with status SENT on a trunk that is UP (R34). -/
def State.awaiting (s : State) (seat : Seat) : Option Cmd :=
  match (s.tpc seat.trunk).inFlight with
  | some f =>
    if s.running ∧ (s.tpc seat.trunk).link = .up ∧ f.pos = seat.pos ∧ f.status = .sent then some f.cmd else none
  | none => none

/-- An acknowledgement ends the delivery it answers, with what FAR or the census makes of it; one that answers nothing is ignored
(R34, R35; log entry 1). -/
def State.takeAck (seat : Seat) (matching : Cmd → Bool) (result : AckResult) (data : Byte) (s : State) : State :=
  match s.awaiting seat with
  | some cmd => if matching cmd then ((s.endDelivery seat.trunk).completed seat cmd result data).settle else s
  | none => s

/-- An OPEN, whatever its argument. -/
def Cmd.isOpen : Cmd → Bool
  | .openMic _ _ => true
  | .close | .mute | .unmute | .offer | .withdraw | .allOff | .queued | .refused | .warn | .listState _ | .probe => false

/-- OPEN_COMPLETE (R55 to R57). -/
def execOpenComplete (seat : Seat) (result : AckResult) (s : State) : Host.Outcome State Fault Refusal :=
  .next (s.takeAck seat Cmd.isOpen result 0)

/-- MUTE_COMPLETE (R59). -/
def execMuteComplete (seat : Seat) (result : AckResult) (s : State) : Host.Outcome State Fault Refusal :=
  .next (s.takeAck seat (fun cmd => cmd == .mute) result 0)

/-- UNMUTE_COMPLETE (R59). -/
def execUnmuteComplete (seat : Seat) (result : AckResult) (s : State) : Host.Outcome State Fault Refusal :=
  .next (s.takeAck seat (fun cmd => cmd == .unmute) result 0)

/-- CLOSE_COMPLETE (R62). -/
def execCloseComplete (seat : Seat) (result : AckResult) (s : State) : Host.Outcome State Fault Refusal :=
  .next (s.takeAck seat (fun cmd => cmd == .close) result 0)

/-- OFFER_COMPLETE (R83, R90). -/
def execOfferComplete (seat : Seat) (result : AckResult) (s : State) : Host.Outcome State Fault Refusal :=
  .next (s.takeAck seat (fun cmd => cmd == .offer) result 0)

/-- WITHDRAW_COMPLETE (R35, R65). -/
def execWithdrawComplete (seat : Seat) (result : AckResult) (s : State) : Host.Outcome State Fault Refusal :=
  .next (s.takeAck seat (fun cmd => cmd == .withdraw) result 0)

/-- INDICATION_COMPLETE (R35). -/
def execIndicationComplete (seat : Seat) (result : AckResult) (s : State) : Host.Outcome State Fault Refusal :=
  .next (s.takeAck seat Cmd.isIndication result 0)

/-- PROBE_ANSWERED, with the data of the acknowledgement (R40). -/
def execProbeAnswered (seat : Seat) (result : AckResult) (data : Byte) (s : State) : Host.Outcome State Fault Refusal :=
  .next (s.takeAck seat (fun cmd => cmd == .probe) result data)

/-- The attempt in flight on a trunk that is UP (R34). -/
def State.openAttempt (s : State) (t : Fin 4) : Option InFlight :=
  match (s.tpc t).inFlight with
  | some f => if s.running ∧ (s.tpc t).link = .up ∧ f.status = .sent then some f else none
  | none => none

/-- COMMAND_ATTEMPT_FAILED: the attempt in flight on the trunk has failed (R36); without one there is none to fail (log entry 1). -/
def execCommandAttemptFailed (t : Fin 4) (s : State) : Host.Outcome State Fault Refusal :=
  .next (match s.openAttempt t with
    | some f => (s.attemptFailed t f).settle
    | none => s)

end Sys2Proof.Machine
end

