-- ==== Sys2Proof/Machine/TrunkRecords.lean ====
section
/-! DEFINITION. Records that name a trunk: CENSUS, ABORT_CENSUS, HOLD_TRUNK, RELEASE_TRUNK, READ_TRUNK (R39, R42, R44, R45, R48). -/

namespace Sys2Proof.Machine

/-- Run a request on the trunk a byte names; a number outside 0-3 is answered BAD_FIELD. -/
def onTrunk (trunk : Byte) (body : Fin 4 → State → Answer) (s : State) : Answer :=
  match finOfByte 4 trunk with
  | none => Answer.refuse .badField s
  | some t => body t s

/-- Something of the floor belongs to the trunk: a channel not FREE, or an OFFERED entry (R39). -/
def State.trunkBusy (s : State) (t : Fin 4) : Bool :=
  (allChans.any fun c => (s.chan c).state ≠ .free && (match (s.chan c).seat with | some seat => seat.trunk = t | none => false))
    || s.far.list.any fun e => e.state = .offered && e.seat.trunk = t

/-- CENSUS on a trunk: the checks of R39 in order. -/
def censusTrunk (t : Fin 4) (s : State) : Answer :=
  if (s.tpc t).censusRunning then Answer.refuse .busy s
  else if (s.tpc t).link ≠ .up then Answer.refuse .state s
  else if s.trunkBusy t then Answer.refuse .state s
  else ⟨s.modTpc t Tpc.startCensus, .ok, []⟩

/-- CENSUS. -/
def execCensus (trunk : Byte) (s : State) : Host.Outcome State Fault Refusal :=
  .next (s.runRecord (.census trunk) 0x10 (onTrunk trunk censusTrunk))

/-- A probe in flight is discarded (R42). -/
def Tpc.dropProbe (p : Tpc) : Tpc :=
  match p.inFlight with
  | some f => if f.cmd = .probe then { p with inFlight := none } else p
  | none => p

/-- ABORT_CENSUS on a trunk (R42). -/
def abortTrunk (t : Fin 4) (s : State) : Answer :=
  if (s.tpc t).censusRunning then ⟨((s.modTpc t Tpc.dropProbe).endCensus t .aborted).settle, .ok, []⟩ else Answer.refuse .state s

/-- ABORT_CENSUS. -/
def execAbortCensus (trunk : Byte) (s : State) : Host.Outcome State Fault Refusal :=
  .next (s.runRecord (.abortCensus trunk) 0x11 (onTrunk trunk abortTrunk))

/-- HOLD_TRUNK on a trunk (R44). -/
def holdTrunkBody (t : Fin 4) (s : State) : Answer :=
  if (s.tpc t).link = .held then ⟨s, .ok, []⟩ else ⟨(s.teardown t .held false).settle, .ok, []⟩

/-- HOLD_TRUNK. -/
def execHoldTrunk (trunk : Byte) (s : State) : Host.Outcome State Fault Refusal :=
  .next (s.runRecord (.holdTrunk trunk) 0x12 (onTrunk trunk holdTrunkBody))

/-- RELEASE_TRUNK on a trunk (R45). -/
def releaseTrunkBody (t : Fin 4) (s : State) : Answer :=
  if (s.tpc t).link = .held then ⟨(s.modTpc t (Tpc.enterOff .down)).notify (.trunk t .down), .ok, []⟩ else Answer.refuse .state s

/-- RELEASE_TRUNK. -/
def execReleaseTrunk (trunk : Byte) (s : State) : Host.Outcome State Fault Refusal :=
  .next (s.runRecord (.releaseTrunk trunk) 0x13 (onTrunk trunk releaseTrunkBody))

/-- The seats of a trunk with an availability. -/
def State.seatsWith (s : State) (t : Fin 4) (a : Availability) : Nat :=
  allSeats.countP fun seat => seat.trunk = t && (s.seatRec seat).availability = a

/-- Talk slots of a trunk held by channels not FREE. -/
def State.slotsInUse (s : State) (t : Fin 4) : Nat := allSlots.countP fun k => (s.slotHolder none t k).isSome

/-- The in-flight part of READ_TRUNK: position, command, attempts; three absent bytes without one (log entry 12). -/
def inFlightFields (o : Option InFlight) : List Byte :=
  match o with
  | some f => u8 (posNumber f.pos) ++ u8 f.cmd.code ++ u8 f.attempts
  | none => [0xFF, 0xFF, 0xFF]

/-- The record of READ_TRUNK (R48). -/
def State.trunkFields (s : State) (t : Fin 4) : List Byte :=
  let p := s.tpc t
  u8 t ++ u8 p.link.code ++ u8 p.goodRun ++ u8 p.badRun ++ flagByte p.censusRunning ++ u8 p.censusOutcome.code ++ u8 p.probed
    ++ u8 p.presentCount ++ u8 p.queue.length ++ inFlightFields p.inFlight ++ u8 (s.seatsWith t .present)
    ++ u8 (s.seatsWith t .unreachable) ++ u8 (s.slotsInUse t) ++ u8 p.lostLinks ++ u8 p.cmdFailures

/-- READ_TRUNK (R48). -/
def readTrunkBody (t : Fin 4) (s : State) : Answer := ⟨s, .ok, s.trunkFields t⟩

/-- READ_TRUNK. -/
def execReadTrunk (trunk : Byte) (s : State) : Host.Outcome State Fault Refusal :=
  .next (s.runRecord (.readTrunk trunk) 0x14 (onTrunk trunk readTrunkBody))

end Sys2Proof.Machine
end

