-- ==== Sys2Proof/Machine/Dispatch.lean ====
section
/-! DEFINITION. The meaning of every command: one arm per constructor. -/

namespace Sys2Proof.Machine

/-- The effect of a command on everything but the queue. -/
def exec (i : Instr) (s : State) : Host.Outcome State Fault Refusal :=
  match i with
  | .powerOnReset => Sys2Proof.Machine.execPowerOnReset s
  | .brownoutReset => Sys2Proof.Machine.execBrownoutReset s
  | .pinReset => Sys2Proof.Machine.execPinReset s
  | .startUpHoldEnd => Sys2Proof.Machine.execStartUpHoldEnd s
  | .hallFrameValid frame => Sys2Proof.Machine.execHallFrameValid frame s
  | .hallFrameInvalid frame => Sys2Proof.Machine.execHallFrameInvalid frame s
  | .hallFrameMissing => Sys2Proof.Machine.execHallFrameMissing s
  | .hallLinkUp frame => Sys2Proof.Machine.execHallLinkUp frame s
  | .hallLinkLost => Sys2Proof.Machine.execHallLinkLost s
  | .hallAlignFail => Sys2Proof.Machine.execHallAlignFail s
  | .hallFrameSend => Sys2Proof.Machine.execHallFrameSend s
  | .mixComputation => Sys2Proof.Machine.execMixComputation s
  | .decisecondExpiry => Sys2Proof.Machine.execDecisecondExpiry s
  | .secondExpiry => Sys2Proof.Machine.execSecondExpiry s
  | .speakWarning c => Sys2Proof.Machine.execSpeakWarning c s
  | .speakExpiry c => Sys2Proof.Machine.execSpeakExpiry c s
  | .offerLapse seat => Sys2Proof.Machine.execOfferLapse seat s
  | .silenceTimerExpiry => Sys2Proof.Machine.execSilenceTimerExpiry s
  | .trunkFrameGood t frame => Sys2Proof.Machine.execTrunkFrameGood t frame s
  | .trunkFrameMalformed t frame => Sys2Proof.Machine.execTrunkFrameMalformed t frame s
  | .trunkFrameMissing t => Sys2Proof.Machine.execTrunkFrameMissing t s
  | .trunkUp t frame => Sys2Proof.Machine.execTrunkUp t frame s
  | .trunkTrainingFail t => Sys2Proof.Machine.execTrunkTrainingFail t s
  | .trunkLinkLost t => Sys2Proof.Machine.execTrunkLinkLost t s
  | .trunkFrameSend t => Sys2Proof.Machine.execTrunkFrameSend t s
  | .hello t position serial arg => Sys2Proof.Machine.execHello t position serial arg s
  | .micPress t position serial arg => Sys2Proof.Machine.execMicPress t position serial arg s
  | .confirm t position serial arg => Sys2Proof.Machine.execConfirm t position serial arg s
  | .priorityDown t position serial arg => Sys2Proof.Machine.execPriorityDown t position serial arg s
  | .priorityUp t position serial arg => Sys2Proof.Machine.execPriorityUp t position serial arg s
  | .chairNext t position serial arg => Sys2Proof.Machine.execChairNext t position serial arg s
  | .chairClear t position serial arg => Sys2Proof.Machine.execChairClear t position serial arg s
  | .takeList t position serial arg => Sys2Proof.Machine.execTakeList t position serial arg s
  | .giveList t position serial arg => Sys2Proof.Machine.execGiveList t position serial arg s
  | .openComplete seat result => Sys2Proof.Machine.execOpenComplete seat result s
  | .muteComplete seat result => Sys2Proof.Machine.execMuteComplete seat result s
  | .unmuteComplete seat result => Sys2Proof.Machine.execUnmuteComplete seat result s
  | .closeComplete seat result => Sys2Proof.Machine.execCloseComplete seat result s
  | .offerComplete seat result => Sys2Proof.Machine.execOfferComplete seat result s
  | .indicationComplete seat result => Sys2Proof.Machine.execIndicationComplete seat result s
  | .probeAnswered seat result data => Sys2Proof.Machine.execProbeAnswered seat result data s
  | .commandAttemptFailed t => Sys2Proof.Machine.execCommandAttemptFailed t s
  | .levelWindowComplete c slot => Sys2Proof.Machine.execLevelWindowComplete c slot s
  | .silenceRelease c => Sys2Proof.Machine.execSilenceRelease c s
  | .unknownRecord kind => Sys2Proof.Machine.execUnknownRecord kind s
  | .loadSeat p => Sys2Proof.Machine.execLoadSeat p s
  | .readSeat code => Sys2Proof.Machine.execReadSeat code s
  | .setClass p => Sys2Proof.Machine.execSetClass p s
  | .readClass cls => Sys2Proof.Machine.execReadClass cls s
  | .setZone p => Sys2Proof.Machine.execSetZone p s
  | .readZone zone => Sys2Proof.Machine.execReadZone zone s
  | .census trunk => Sys2Proof.Machine.execCensus trunk s
  | .abortCensus trunk => Sys2Proof.Machine.execAbortCensus trunk s
  | .holdTrunk trunk => Sys2Proof.Machine.execHoldTrunk trunk s
  | .releaseTrunk trunk => Sys2Proof.Machine.execReleaseTrunk trunk s
  | .readTrunk trunk => Sys2Proof.Machine.execReadTrunk trunk s
  | .close code => Sys2Proof.Machine.execClose code s
  | .closeAll => Sys2Proof.Machine.execCloseAll s
  | .readChannels => Sys2Proof.Machine.execReadChannels s
  | .insertRequest code index => Sys2Proof.Machine.execInsertRequest code index s
  | .cancelRequest code => Sys2Proof.Machine.execCancelRequest code s
  | .clearList => Sys2Proof.Machine.execClearList s
  | .readList first count => Sys2Proof.Machine.execReadList first count s
  | .next => Sys2Proof.Machine.execNext s
  | .grant code => Sys2Proof.Machine.execGrant code s
  | .claimList => Sys2Proof.Machine.execClaimList s
  | .yieldList => Sys2Proof.Machine.execYieldList s
  | .forceList field => Sys2Proof.Machine.execForceList field s
  | .readMix => Sys2Proof.Machine.execReadMix s
  | .batch n => Sys2Proof.Machine.execBatch n s
  | .setNotices enables => Sys2Proof.Machine.execSetNotices enables s
  | .setFloor p => Sys2Proof.Machine.execSetFloor p s
  | .readSettings => Sys2Proof.Machine.execReadSettings s
  | .openSitting => Sys2Proof.Machine.execOpenSitting s
  | .closeSitting => Sys2Proof.Machine.execCloseSitting s
  | .readStatus => Sys2Proof.Machine.execReadStatus s
  | .clearStatus mask => Sys2Proof.Machine.execClearStatus mask s
  | .setReport enables => Sys2Proof.Machine.execSetReport enables s
  | .resetEngine => Sys2Proof.Machine.execResetEngine s
  | .readIdent => Sys2Proof.Machine.execReadIdent s
  | .withdrawComplete seat result => Sys2Proof.Machine.execWithdrawComplete seat result s

end Sys2Proof.Machine
end

