-- ==== Sys2Proof/Machine/Idle.lean ====
section
/-! DEFINITION. What the engine does of its own accord when no command waits (log entry 4). -/

namespace Sys2Proof.Machine

/-- MGE executes the record of an accepted packet that waits next (R169, R170). With none the engine idles, once a batch that records of their own
have open has ended: the queue run empty is the end of their packet (R172; log entry 3). -/
def idle (s : State) : Host.Outcome State Fault Refusal :=
  match s.nextWaiting with
  | some (.command i) => exec i s
  | some (.badLength kind) => .next (s.answerBadLength kind)
  | none => .next (if s.running then s.endOwnBatch else s)

end Sys2Proof.Machine
end

