-- ==== Sys2Proof/Safety.lean ====
section
/-! DEFINITION. What holds of every state the engine can reach, and the conditions under which single commands are described. -/

namespace Sys2Proof.Machine

/-! ### Invariants -/

/-- Every floor setting lies in its range, and the chair reserve is at most the floor limit minus 1 (R180). -/
def Settings.legal (v : Settings) : Prop :=
  (1 ≤ v.floorLimit ∧ v.floorLimit ≤ 12) ∧ (v.chairReserve ≤ 4 ∧ v.chairReserve ≤ v.floorLimit - 1)
    ∧ (1 ≤ v.confirmWindow ∧ v.confirmWindow ≤ 600) ∧ (8 ≤ v.windowExponent ∧ v.windowExponent ≤ 12) ∧ v.gateThreshold ≤ 32767
    ∧ v.releaseThreshold ≤ 32767 ∧ (1 ≤ v.silenceCountSetting ∧ v.silenceCountSetting ≤ 255) ∧ v.warnLead ≤ 300
    ∧ (1 ≤ v.retryLimit ∧ v.retryLimit ≤ 15) ∧ v.silenceLimit ≤ 255

/-- The open sequence lists exactly the channels that are not FREE, each once (R52). -/
def State.openSeqExact (s : State) : Prop := s.far.openSeq.Nodup ∧ ∀ c, c ∈ s.far.openSeq ↔ (s.chan c).state ≠ .free

/-- A FREE channel holds no seat, no slot and no successor; any other holds one talk slot of its seat's trunk, and no two hold the same
(R54). -/
def State.slotsExclusive (s : State) : Prop :=
  (∀ c, (s.chan c).state = .free → (s.chan c).seat = none ∧ (s.chan c).slot = none ∧ (s.chan c).successor = none)
    ∧ (∀ c, (s.chan c).state ≠ .free → ∃ x k, (s.chan c).seat = some x ∧ (s.chan c).trunk = some x.trunk ∧ (s.chan c).slot = some k)
    ∧ ∀ c d, c ≠ d → (s.chan c).state ≠ .free → (s.chan d).state ≠ .free → (s.chan c).trunk = (s.chan d).trunk →
        (s.chan c).slot ≠ (s.chan d).slot

/-- The queues, lists and phases stand within their capacities: 32 notices, 64 list entries, 4 reply places, 2 echoes on each trunk, at
most 7 records remaining in a batch, the decisecond phase below 1600 and the second phase below 10 (R28, R73, R136, R169, R172, R173). -/
def State.withinCapacities (s : State) : Prop :=
  s.hli.noticeQueue.length ≤ 32 ∧ s.far.list.length ≤ 64 ∧ s.hli.replyQueue.length ≤ 4 ∧ (∀ t, (s.tpc t).echoes.length ≤ 2)
    ∧ (∀ n, s.mge.batch = some n → n ≤ 7) ∧ s.mge.decisecondPhase < 1600 ∧ s.mge.secondPhase < 10

/-- Two Seat Tables agree in what the sitting lock protects: seat classes, zone windows, and the kind, level and group of each class
(R183). -/
def Stb.sameSeating (a b : Stb) : Prop :=
  (∀ i, (vget a.seats i).cls = (vget b.seats i).cls) ∧ a.zones = b.zones ∧
    ∀ n, (vget a.classes n).kind = (vget b.classes n).kind ∧ (vget a.classes n).level = (vget b.classes n).level ∧
      (vget a.classes n).group = (vget b.classes n).group

/-! ### Conditions of single commands -/

/-- A record command may run: no start-up hold is in force, and the record is the one that waits next or none waits (log entry 3). -/
def State.takes (s : State) (i : Instr) : Prop := s.running = true ∧ s.recordTurn i = true

/-- The state a record leaves: its effect `u`, answered with a reply record, and counted in an open batch (R170, R172). -/
def State.afterRecord (s u : State) (kind : Byte) (status : Status) (fields : List Byte) : State :=
  (u.replied ⟨kind, status, fields⟩ s.nextRecord.isSome).countBatch s.mge.batch.isSome s.lastOfPacket

/-- An event of a seat is taken and is no repeat: no start-up hold, the trunk UP, a valid position, a new serial (R26, R27). -/
def State.takesEvent (s : State) (t : Fin 4) (position : Fin 128) (serial : Fin 16) (x : Seat) : Prop :=
  s.running = true ∧ (s.tpc t).link = .up ∧ seatOfPosition t position = some x ∧ (s.seatRec x).lastSerial ≠ some serial

/-- The state in which an accepted event is dispatched: echoed, its seat PRESENT, its serial stored (R27, R28). -/
def State.afterIntake (s : State) (x : Seat) (serial : Fin 16) : State := (s.echo x serial).accept x serial

/-- A completion is taken: the command was sent to the seat, and awaits its acknowledgement (R34). -/
def State.afterDelivery (s : State) (x : Seat) : State := s.endDelivery x.trunk

/-- No promotion is owed: no trigger is outstanding, or a batch defers it (R109). -/
def State.noPromotionOwed (s : State) : Prop := s.mge.batch.isSome = true ∨ s.far.promotionDeferred = false

/-- The command of a seat event of a kind. -/
def seatEventOf (kind : EventKind) (t : Fin 4) (position : Fin 128) (serial : Fin 16) (arg : Byte) : Instr :=
  match kind with
  | .hello => .hello t position serial arg
  | .micPress => .micPress t position serial arg
  | .confirm => .confirm t position serial arg
  | .priorityDown => .priorityDown t position serial arg
  | .priorityUp => .priorityUp t position serial arg
  | .chairNext => .chairNext t position serial arg
  | .chairClear => .chairClear t position serial arg
  | .takeList => .takeList t position serial arg
  | .giveList => .giveList t position serial arg

/-- The command of a completion: what a seat command has when it is answered (R35). ALL_OFF goes to no seat and has none. -/
def completionOf (cmd : Cmd) (x : Seat) (result : AckResult) (data : Byte) : Option Instr :=
  match cmd with
  | .openMic _ _ => some (.openComplete x result)
  | .close => some (.closeComplete x result)
  | .mute => some (.muteComplete x result)
  | .unmute => some (.unmuteComplete x result)
  | .offer => some (.offerComplete x result)
  | .withdraw => some (.withdrawComplete x result)
  | .queued | .refused | .warn | .listState _ => some (.indicationComplete x result)
  | .probe => some (.probeAnswered x result data)
  | .allOff => none

/-- `u` is what an event position of a good frame leaves of `s`, whose trunk is UP: an empty position changes nothing, an event of a listed kind
does what the command of its kind does, and one of any other kind is taken the same way and sets BAD_EVENT (R26, R27, R28, R29). -/
def State.eventPosition (s : State) (t : Fin 4) (event : Option UpEvent) (u : State) : Prop :=
  match event with
  | none => u = s
  | some e =>
    match eventKindOfCode e.kind.val, seatOfPosition t e.position with
    | some kind, _ => exec (seatEventOf kind t e.position e.serial e.arg) s = .next u
    | none, none => u = s.setFlag .badEvent
    | none, some x =>
      if (s.seatRec x).lastSerial = some e.serial then u = s.echo x e.serial
      else u = ((s.afterIntake x e.serial).setFlag .badEvent).settle

/-- The entries of chairs stand before those of delegates (R73). -/
def chairsFirst (l : List Entry) : Prop := l.Pairwise fun a b => a.kind ≠ .chair → b.kind ≠ .chair

/-- The state with these notices queued, in this order (R173). -/
def State.notices (s : State) (ns : List Notice) : State := ns.foldl (fun a n => a.notify n) s

/-- `u` differs from `s` outside the seat records, trunks, FAR, SLM and FMX only by these notices, queued in this order (R173). -/
def State.onlyNotices (s : State) (ns : List Notice) (u : State) : Prop :=
  u.startUpHold = s.startUpHold ∧ u.lastReply = s.lastReply ∧ u.hallOut = s.hallOut ∧ u.trunkOut = s.trunkOut ∧ u.pending = s.pending
    ∧ u.stb.classes = s.stb.classes ∧ u.stb.zones = s.stb.zones ∧ u.hli = (s.notices ns).hli ∧ u.mge = (s.notices ns).mge

/-! ### What freeing, closing and the hold level come to -/

/-- `u` is `s` with channel `c` freed: its entry cleared and out of the open sequence, a promotion owed, the list and the trunks as given, and these
notices queued (R63). -/
def State.freed (s : State) (c : Fin 12) (list : List Entry) (trunks : Vector Tpc 4) (ns : List Notice) (u : State) : Prop :=
  u.chan c = Channel.reset ∧ (∀ d, d ≠ c → u.chan d = s.chan d)
    ∧ u.far = { s.far with
        channels := u.far.channels, openSeq := s.far.openSeq.filter (fun d => d ≠ c), list := list, promotionDeferred := true }
    ∧ u.trunks = trunks ∧ u.stb = s.stb ∧ u.slm = s.slm ∧ u.fmx = s.fmx ∧ s.onlyNotices ns u

/-- The record of `x` with the clock of channel `c` added to its speaking total (R143). -/
def State.withClock (s : State) (c : Fin 12) (x : Seat) : State :=
  s.modSeat x fun r => { r with speakingTotal := min 999999 (r.speakingTotal + (s.slmOf c).clock) }

/-- The window of channel `c` ended without completion (R146). -/
def State.withoutWindow (s : State) (c : Fin 12) : State :=
  { s with slm := vset s.slm c { s.slmOf c with progress := none, exponent := none, sum := 0 } }

/-- `u` is `s` with channel `c` of seat `x` CLOSING with a cause and CLOSE placed; where it was OPEN its window is aborted, and where it was OPEN or
HELD its clock is added to the seat's total; no notice (R60, R143, R146). -/
def State.closingOf (s : State) (c : Fin 12) (x : Seat) (cause : CloseCause) (u : State) : Prop :=
  u.chan c = { s.chan c with state := .closing, closeCause := some cause } ∧ (∀ d, d ≠ c → u.chan d = s.chan d)
    ∧ u.far = { s.far with channels := u.far.channels } ∧ u.trunks = (s.place x .close).trunks ∧ u.fmx = s.fmx
    ∧ u.slm = (if (s.chan c).state = .opened then s.withoutWindow c else s).slm
    ∧ u.stb = (if (s.chan c).state = .opening then s else s.withClock c x).stb ∧ s.onlyNotices [] u

/-- `u` is `s` with CLOSING channel `c` of seat `x` at the end of its close: CH_CLOSE carries the cause it recorded and its clock; without a successor
still valid the channel is freed, and otherwise it is handed over in place, the OPEN of the successor placed (R62, R100; a successor whose CLOSE is
unsent is left out). -/
def State.closeEndOf (s : State) (c : Fin 12) (x : Seat) (u : State) : Prop :=
  let gone : Notice := .chClose c x ((s.chan c).closeCause.getD .released) (s.slmOf c).clock
  ((s.chan c).successor = none ∨ (∃ y, (s.chan c).successor = some y ∧ s.successorValid c y = false) → s.freed c s.far.list s.trunks [gone] u)
    ∧ ∀ y k, (s.chan c).successor = some y → s.successorValid c y = true → s.unsent y ≠ some .close →
      (if (s.chan c).trunk = some y.trunk then (s.chan c).slot else s.freeSlot none y.trunk) = some k →
      let muted := decide (s.kindOf y = .delegate ∧ s.levelOf y < s.far.holdLevel)
      u.chan c = ⟨.opening, some y, some y.trunk, some k, some (s.levelOf y), some (s.kindOf y), some .succession, some muted, some false,
          none, none⟩
        ∧ (∀ d, d ≠ c → u.chan d = s.chan d) ∧ u.far = { s.far with channels := u.far.channels } ∧ u.stb = s.stb
        ∧ u.slm = vset s.slm c SlmChan.reset ∧ u.fmx = { s.fmx with chans := vset s.fmx.chans c { s.fmxOf c with latest := 0, fresh := false } }
        ∧ u.trunks = (s.place y (.openMic k muted)).trunks ∧ s.onlyNotices [gone] u

/-- A member leaves the hold set: the level follows the members left, and notice HOLD tells it (R117, R122, R123). -/
def State.memberLeft (s : State) (x : Seat) : State :=
  let members := s.far.holdSet.filter fun y => y ≠ x
  let level := s.levelOfMembers members
  if x ∈ s.far.holdSet then
    State.notify (.hold (some x) .left level members.length) { s with far := { s.far with holdSet := members, holdLevel := level } }
  else s

/-- The holder loses the list: LIST_CONTROL is queued, LIST_STATE (not holding) placed (R128, R132). -/
def State.holderLeft (s : State) (x : Seat) : State :=
  if s.far.holder = some x then
    State.place x (.listState false) (State.notify (.listControl s.far.claimed none s.far.forceReturn)
      { s with far := { s.far with holder := none } })
  else s

/-- The hold level read again from its members: a change is told by one HOLD notice (R11, R117, R123). -/
def State.levelRead (s : State) : State :=
  let level := s.levelOfMembers s.far.holdSet
  if level = s.far.holdLevel then s
  else State.notify (.hold none .level level s.far.holdSet.length) { s with far := { s.far with holdLevel := level } }

/-- What a rise of the hold level places at channel `c` of `s`, on what it has placed so far: MUTE or CLOSE, by the priority action, where the channel
is OPEN and below the level, and MUTE where it is HELD, below it, and an UNMUTE of its seat is unsent or in flight (R119). -/
def State.risePlacedAt (s a : State) (c : Fin 12) : State :=
  match (s.chan c).state, (s.chan c).seat with
  | .opened, some x =>
    if s.belowHold c = true then a.place x (match s.mge.settings.priorityAction with | .mute => .mute | .close => .close) else a
  | .held, some x => if s.belowHold c = true ∧ (a.unsent x = some .unmute ∨ a.inFlightFor x = some .unmute) then a.place x .mute else a
  | _, _ => a

/-- The clock that a rise under priority action CLOSE adds at channel `c` of `s`: an OPEN one's below the level (R60, R119, R143). -/
def State.riseClockedAt (s a : State) (c : Fin 12) : State :=
  match (s.chan c).seat with
  | some x => if s.mge.settings.priorityAction = .close ∧ (s.chan c).state = .opened ∧ s.belowHold c = true then a.withClock c x else a
  | none => a

/-- `u` is `s` after its hold level has risen. Each OPEN channel below it goes to HELD with CH_HELD, in ascending channel number, or under priority
action CLOSE to CLOSING with cause PRIORITY; its window is aborted, and MUTE or CLOSE is placed; every other channel stays as it is, but for the MUTE
of a HELD one whose UNMUTE waits or is under way (R59, R60, R119, R143, R146). -/
def State.risen (s u : State) : Prop :=
  u.far = { s.far with channels := u.far.channels }
    ∧ (∀ c, (s.chan c).state ≠ .opened ∨ s.belowHold c = false → u.chan c = s.chan c ∧ u.slmOf c = s.slmOf c)
    ∧ (∀ c, (s.chan c).state = .opened → s.belowHold c = true → u.chan c = (match s.mge.settings.priorityAction with
        | .mute => { s.chan c with state := .held }
        | .close => { s.chan c with state := .closing, closeCause := some .priority })
      ∧ u.slmOf c = { s.slmOf c with progress := none, exponent := none, sum := 0 })
    ∧ u.trunks = (allChans.foldl s.risePlacedAt s).trunks ∧ u.stb = (allChans.foldl s.riseClockedAt s).stb ∧ u.fmx = s.fmx
    ∧ (s.mge.settings.priorityAction = .mute → u.stb = s.stb)
    ∧ s.onlyNotices (allChans.filterMap fun c =>
        if s.mge.settings.priorityAction = .mute ∧ (s.chan c).state = .opened ∧ s.belowHold c = true then (s.chan c).seat.map (.chHeld c) else none) u

/-- `s` once a fall of the hold level has met channel `c`. A HELD one that is no longer below the level gets UNMUTE, unless one is unsent, or is in
flight with no MUTE unsent behind it. Where the UNMUTE drops an unsent MUTE and none is in flight, the channel is OPEN again at once: its window
starts, CH_RESUMED is queued, and a first OPEN counts as a grant (R32, R59, R121, R145). -/
def State.unmutedAt (s : State) (c : Fin 12) : State :=
  match (s.chan c).state, (s.chan c).seat with
  | .held, some x =>
    if s.belowHold c = true ∨ s.unsent x = some .unmute ∨ (s.inFlightFor x = some .unmute ∧ s.unsent x ≠ some .mute) then s
    else if s.unsent x = some .mute ∧ s.inFlightFor x ≠ some .unmute ∧ (s.tpc x.trunk).link = .up ∧ (s.seatRec x).availability = .present then
      State.notify (.chResumed c x) { s.place x .unmute with
        far := { s.far with channels := vset s.far.channels c { s.chan c with state := .opened, reachedOpen := some true } }
        slm := if s.mge.settings.levelMonitor then
            vset s.slm c { s.slmOf c with progress := some 0, exponent := some s.mge.settings.windowExponent, sum := 0 }
          else s.slm
        stb := if (s.chan c).reachedOpen = some false then (s.modSeat x fun r => { r with grants := min 65535 (r.grants + 1) }).stb else s.stb }
    else s.place x .unmute
  | _, _ => s

/-- `s` after its hold level has fallen: the fall has met its channels in ascending channel number, and a promotion is owed (R109, R121). -/
def State.fallen (s : State) : State :=
  let met := allChans.foldl State.unmutedAt s
  { met with far := { met.far with promotionDeferred := true } }

/-- `u` is what the floor of `s` comes to after its hold level has come from `before` to what it is. Unchanged, nothing happens. A fall meets every
HELD channel and owes a promotion: with no HELD channel nothing else happens, and a single one that is no longer below, with no command of its seat
unsent and no UNMUTE in flight, gets UNMUTE. After a rise no delegate below the level is left OPEN (R117, R119, R121). -/
def State.levelMet (before : Fin 8) (s u : State) : Prop :=
  let owed : State := { s with far := { s.far with promotionDeferred := true } }
  (s.far.holdLevel = before → u = s)
    ∧ (s.far.holdLevel < before → u = s.fallen)
    ∧ (s.far.holdLevel < before → (∀ c, (s.chan c).state ≠ .held) → u = owed)
    ∧ (∀ (c : Fin 12) (y : Seat) (l : Fin 8), s.far.holdLevel < before → (∀ d, (s.chan d).state = .held ↔ d = c) →
      (s.chan c).seat = some y → (s.chan c).level = some l →
      (l < s.far.holdLevel → (s.chan c).kind = some .delegate → u = owed)
        ∧ (s.far.holdLevel ≤ l → s.unsent y = none → s.inFlightFor y ≠ some .unmute → u = State.place y .unmute owed))
    ∧ (before < s.far.holdLevel → s.risen u
      ∧ ∀ c l, (u.chan c).state = .opened → (u.chan c).kind = some .delegate → (u.chan c).level = some l → s.far.holdLevel ≤ l)

end Sys2Proof.Machine
end

