-- ==== Sys2Proof/Certificates/Slice0/Obligations.lean ====
section
/-! DEFINITION. Statements about the engine for the provers: how a step runs, what each command of the table does and leaves alone, and what every
step keeps. `u.settle` is the end of a handling: the promotion run when one is owed (R109). -/

open Sys2Proof Sys2Proof.Machine

/-! ### Steps and resets -/

/-- The step takes the command at the front of the queue and runs it on the state with the rest of the queue (log entry 4). -/
def Obligations.StepRunsFrontCommand : Prop :=
  ∀ (i : Instr) (rest : List Instr) (s : State), s.pending = i :: rest → step s = exec i { s with pending := rest }

/-- With no command waiting MGE executes the record that waits next, answers BAD_FIELD to one of a wrong length, and otherwise idles;
a batch that records of their own have left open then ends, with its promotion run (R169, R170, R172; that all this happens on an empty queue is the
model's choice, log entries 3 and 4). -/
def Obligations.EmptyQueueRunsWaitingRecord : Prop :=
  ∀ s : State, s.pending = [] →
    (∀ i, s.nextWaiting = some (.command i) → step s = exec i s)
      ∧ (∀ kind, s.nextWaiting = some (.badLength kind) → step s = .next (s.afterRecord s kind .badField []))
      ∧ (s.nextWaiting = none → s.running = false ∨ s.mge.batch = none → step s = .next s)
      ∧ (s.nextWaiting = none → s.running = true → s.mge.batch ≠ none →
        step s = .next (State.settle { s with mge := { s.mge with batch := none } }))

/-- Every command answers a next state and leaves the queue of waiting commands as it found it (the spec names no event that stops the
engine; the queue is the model's own, log entry 27). -/
def Obligations.EveryCommandAnswersAndKeepsQueue : Prop :=
  ∀ (i : Instr) (s : State), ∃ t, exec i s = .next t ∧ t.pending = s.pending

/-- While a start-up hold is in force no command but the three resets and the end of the hold changes anything (R191). -/
def Obligations.StartUpHoldStopsEveryOtherCommand : Prop :=
  ∀ (i : Instr) (s : State), s.startUpHold ≠ none → i ≠ .powerOnReset → i ≠ .brownoutReset → i ≠ .pinReset → i ≠ .startUpHoldEnd →
    exec i s = .next s

/-- What power-on reset leaves, block by block (Reset columns of R2, R7, R14, R22, R50, R52, R72, R117, R125, R135, R151, R163, R179 and
R180). -/
def Obligations.PowerOnResetLeavesResetColumns : Prop :=
  (State.reset.startUpHold = some 40 ∧ State.reset.pending = [])
    ∧ (∀ x, State.reset.seatRec x = ⟨.absent, true, 0, 0, none, none, none, 0, 0⟩)
    ∧ (∀ n : Fin 8, vget State.reset.stb.classes n
        = ⟨if n = 7 then .chair else .delegate, n, if n < 4 then .low else .high, 0, .notify, 0, false, n ≠ 7⟩)
    ∧ (∀ z : Fin 8, vget State.reset.stb.zones z = ⟨false, 0, 0, 0⟩)
    ∧ (∀ t, (State.reset.tpc t).link = .down ∧ (State.reset.tpc t).goodRun = 0 ∧ (State.reset.tpc t).badRun = 0
        ∧ (State.reset.tpc t).nextFrame = 0 ∧ (State.reset.tpc t).lastAnswered = none ∧ (State.reset.tpc t).echoes = []
        ∧ (State.reset.tpc t).queue = [] ∧ (State.reset.tpc t).inFlight = none ∧ (State.reset.tpc t).censusRunning = false
        ∧ (State.reset.tpc t).censusOutcome = .none ∧ (State.reset.tpc t).probed = 0 ∧ (State.reset.tpc t).presentCount = 0
        ∧ (State.reset.tpc t).nextProbe = 1 ∧ (State.reset.tpc t).lostLinks = 0 ∧ (State.reset.tpc t).cmdFailures = 0)
    ∧ (∀ c, State.reset.chan c = ⟨.free, none, none, none, none, none, none, none, none, none, none⟩)
    ∧ (State.reset.far.openSeq = [] ∧ State.reset.far.list = [] ∧ State.reset.far.holdSet = [] ∧ State.reset.far.holdLevel = 0
        ∧ State.reset.far.claimed = false ∧ State.reset.far.holder = none ∧ State.reset.far.forceReturn = false
        ∧ State.reset.far.promotionDeferred = false)
    ∧ (∀ c, State.reset.slmOf c = ⟨0, false, false, none, none, 0, none, true, 0⟩)
    ∧ (∀ c, (State.reset.fmxOf c).latest = 0 ∧ (State.reset.fmxOf c).fresh = false ∧ (State.reset.fmxOf c).slotSample = 0)
    ∧ (State.reset.fmx.mixSample = 0 ∧ State.reset.fmx.nomCount = 0 ∧ State.reset.fmx.attenuation = 0 ∧ State.reset.fmx.clipped = false)
    ∧ State.reset.hli = ⟨.down, 0, 0, none, none, [], 0, none, [], 0x3FFF, false, none⟩
    ∧ State.reset.mge.settings = ⟨.direct, 6, 1, .queue, .arrival, false, 100, true, true, .mute, true, true, 10, 256, 128, 100, 30, 3, 30, true⟩
    ∧ (State.reset.mge.sittingOpen = false ∧ State.reset.mge.flags = 0x0800 ∧ State.reset.mge.reportMask = 0x0C0C
        ∧ State.reset.mge.refused = 0 ∧ State.reset.mge.lapsed = 0 ∧ State.reset.mge.noticesLost = 0 ∧ State.reset.mge.resetCause = .power
        ∧ State.reset.mge.batch = none ∧ State.reset.mge.decisecondPhase = 0 ∧ State.reset.mge.secondPhase = 0)

/-- The three hardware resets leave the state of power-on reset but for the reset cause and the length of the hold, from every state; the
end of the hold brings the hall link to ALIGNING with both runs 0, and without a hold there is none to end (R164, R191; that the commands
waiting survive a reset, and that START_UP_HOLD_END without a hold leaves the state as it is, are the model's choices, log entries 27 and 1). -/
def Obligations.HardwareResetsRestartEngine : Prop :=
  (∀ s, exec .powerOnReset s = .next { State.reset with pending := s.pending })
    ∧ (∀ s, exec .brownoutReset s
        = .next { State.reset with pending := s.pending, startUpHold := some 40, mge := { State.reset.mge with resetCause := .brownout } })
    ∧ (∀ s, exec .pinReset s
        = .next { State.reset with pending := s.pending, startUpHold := some 2, mge := { State.reset.mge with resetCause := .pin } })
    ∧ (∀ s n, s.startUpHold = some n → exec .startUpHoldEnd s
        = .next { s with startUpHold := none, hli := { s.hli with link := .aligning, validRun := 0, badRun := 0 } })
    ∧ ∀ s, s.startUpHold = none → exec .startUpHoldEnd s = .next s

/-- RESET_ENGINE: the floor, the timers and the mix return to their reset columns; every port drops its commands and its census, and a
port that is UP keeps an ALL_OFF to send; notices are dropped; seats, classes, zones, settings, masks, counters and both links stay; it is
answered OK, and the records left in its packet are answered SKIPPED (R49, R69, R171, R192). That one given as a record of its own ends its packet,
so that no later record is SKIPPED for it, is the model's choice, log entry 3. -/
def Obligations.ResetEngineClearsFloorKeepsSeating : Prop :=
  ∀ s : State, s.takes .resetEngine → ∃ t : State, exec .resetEngine s = .next t
    ∧ (t.stb = s.stb ∧ t.startUpHold = s.startUpHold ∧ t.pending = s.pending ∧ t.hallOut = s.hallOut ∧ t.trunkOut = s.trunkOut)
    ∧ (t.far = State.reset.far ∧ t.slm = State.reset.slm ∧ t.fmx = State.reset.fmx)
    ∧ (∀ k, t.tpc k = { s.tpc k with
        queue := if (s.tpc k).link = .up then [⟨none, .allOff⟩] else []
        inFlight := none
        censusRunning := false
        censusOutcome := if (s.tpc k).censusRunning then .aborted else (s.tpc k).censusOutcome })
    ∧ t.mge = { s.mge with sittingOpen := false, flags := s.mge.flags ||| 0x0800, resetCause := .command, batch := none }
    ∧ t.lastReply = some ⟨0x57, .ok, []⟩
    ∧ t.hli = { s.hli with
        noticeQueue := []
        replyQueue := if s.nextRecord.isSome then modNextPlace (fun p => { p with
          waiting := []
          answered := p.answered ++ ⟨0x57, .ok, []⟩ :: p.waiting.tail.map fun r => ⟨r.getD 0 0, .skipped, []⟩ }) s.hli.replyQueue
        else s.hli.replyQueue }

/-- The hall link aligns on valid frames and fails on bad ones: DOWN to ALIGNING at the first valid frame, UP at the 32nd in a row (which
HALL_LINK_UP names), back to DOWN at the 8th bad frame time in a row (which HALL_ALIGN_FAIL names while ALIGNING); while UP a bad frame
time short of the 8th is counted, and drops a packet being assembled with LANE_ERROR (R164, R165, R167). That HALL_LINK_UP with a valid frame and
HALL_ALIGN_FAIL leave the state as it is when their event is not due is the model's choice, log entry 1. -/
def Obligations.HallLinkFollowsFrameRuns : Prop :=
  (∀ s f, s.running = true → hallFrameOk f = true → s.hli.link = .down → exec (.hallFrameValid f) s
      = .next { s with hli := { s.hli with link := .aligning, validRun := 1, badRun := 0, lastFrame := some (f.getD 1 0) } })
    ∧ (∀ s f, s.running = true → hallFrameOk f = true → s.hli.link = .aligning → s.hli.validRun + 1 < 32 →
        exec (.hallLinkUp f) s = .next s ∧ exec (.hallFrameValid f) s
          = .next { s with hli := { s.hli with validRun := s.hli.validRun + 1, badRun := 0, lastFrame := some (f.getD 1 0) } })
    ∧ (∀ s f, s.running = true → hallFrameOk f = true → s.hli.link = .aligning → s.hli.validRun = 31 →
        exec (.hallLinkUp f) s = .next { s with hli := { s.hli with
            link := .up, validRun := 32, badRun := 0, lastFrame := some (f.getD 1 0), assembly := none } }
          ∧ exec (.hallFrameValid f) s = exec (.hallLinkUp f) s)
    ∧ (∀ s f, s.running = true → hallFrameOk f = false → s.hli.link = .aligning → s.hli.badRun + 1 < 8 →
        exec .hallAlignFail s = .next s ∧ exec .hallFrameMissing s
          = .next { s with hli := { s.hli with validRun := 0, badRun := s.hli.badRun + 1 } }
          ∧ exec (.hallFrameInvalid f) s = exec .hallFrameMissing s)
    ∧ (∀ s f, s.running = true → hallFrameOk f = false → s.hli.link = .aligning → s.hli.badRun = 7 →
        exec .hallAlignFail s = .next { s with hli := { s.hli with link := .down, validRun := 0, badRun := 8, lastFrame := none } }
          ∧ exec .hallFrameMissing s = exec .hallAlignFail s ∧ exec (.hallFrameInvalid f) s = exec .hallAlignFail s)
    ∧ (∀ s f, s.running = true → hallFrameOk f = false → s.hli.link = .up → s.hli.badRun + 1 < 8 →
        exec .hallFrameMissing s = .next { s with
            hli := { s.hli with badRun := s.hli.badRun + 1, assembly := none }
            mge := { s.mge with flags := if s.hli.assembly.isSome then flagsSet .laneError s.mge.flags else s.mge.flags } }
          ∧ exec (.hallFrameInvalid f) s = exec .hallFrameMissing s)

/-- HALL_LINK_LOST, the 8th bad frame time in a row while UP: the link goes DOWN, no packet is being assembled or sent, a reply being sent
stays in its place while the notices of a notice packet being sent are lost; an ATTENDED engine becomes UNATTENDED, sets FALLBACK and
clears the claim and force-return. The floor, the seats and the trunks stay (R164, R167, R177, R178, R133). -/
def Obligations.HallLinkLossUnattendsEngine : Prop :=
  ∀ s : State, s.running = true → s.hli.link = .up → s.hli.badRun = 7 → ∃ t, exec .hallLinkLost s = .next t
    ∧ exec .hallFrameMissing s = .next t
    ∧ t.hli = { s.hli with
        link := .down, lastFrame := none, badRun := 8, assembly := none, laneSender := none, attended := false
        silenceTimer := if s.hli.attended then none else s.hli.silenceTimer
        noticeQueue := t.hli.noticeQueue }
    ∧ t.far = (if s.hli.attended then { s.far with claimed := false, forceReturn := false } else s.far)
    ∧ (s.hli.attended = true → flagsHas .fallback t.mge.flags = true)
    ∧ (s.hli.assembly ≠ none → flagsHas .laneError t.mge.flags = true)
    ∧ (∀ count bytes sent, s.hli.laneSender = some ⟨.notices count, bytes, sent⟩ →
        flagsHas .noticeLost t.mge.flags = true ∧ min 255 (s.mge.noticesLost + count) ≤ t.mge.noticesLost)
    ∧ t.stb = s.stb ∧ t.trunks = s.trunks ∧ t.slm = s.slm ∧ t.fmx = s.fmx ∧ t.startUpHold = s.startUpHold ∧ t.lastReply = s.lastReply
    ∧ t.hallOut = s.hallOut ∧ t.trunkOut = s.trunkOut ∧ t.pending = s.pending

/-- A valid hall frame while UP, by its lane bytes. A frame number that is not one above the last drops the packet being assembled, with LANE_ERROR,
and so does a packet-start mark; lane bytes join the packet begun by the mark, and without one are ignored. An announced length below 6 or above 256
ends the packet with LANE_ERROR; short of its length the packet goes on; a complete one with a matching CRC makes the engine ATTENDED with its silence
timer at 0 and takes a place of the reply queue, or sets LANE_OVERRUN when all four are taken, and with another CRC only sets LANE_ERROR (R167, R168,
R169, R177). A packet with records first ends a batch that is open while no accepted record waits, for a batch never spans two packets (R172; that
such a batch, of records of their own, ends here is the model's choice, log entry 3). -/
def Obligations.LaneAcceptsCompletedPacket : Prop :=
  ∀ (s : State) (f : List Byte), s.running = true → hallFrameOk f = true → s.hli.link = .up →
    let gap := s.hli.lastFrame != some (f.getD 1 0 - 1)
    let old := if gap then none else s.hli.assembly
    let dropped := (gap && s.hli.assembly.isSome) || (laneCount f != 0 && packetStart f && old.isSome)
    let m : Mge := if dropped then { s.mge with flags := flagsSet .laneError s.mge.flags } else s.mge
    let h := fun assembly : Option (List Byte) => { s.hli with badRun := 0, lastFrame := some (f.getD 1 0), assembly := assembly }
    let frame := exec (.hallFrameValid f) s
    (laneCount f = 0 → frame = .next { s with hli := h old, mge := m })
      ∧ (laneCount f ≠ 0 → packetStart f = false → old = none → frame = .next { s with hli := h none, mge := m })
      ∧ ∀ b : List Byte, laneCount f ≠ 0 →
        (packetStart f = true ∧ b = laneBytes f) ∨ (packetStart f = false ∧ ∃ o, old = some o ∧ b = o ++ laneBytes f) →
        (b.length < 2 → frame = .next { s with hli := h (some b), mge := m })
          ∧ (2 ≤ b.length → packetLength b < 6 ∨ 256 < packetLength b →
            frame = .next { s with hli := h none, mge := { m with flags := flagsSet .laneError m.flags } })
          ∧ (2 ≤ b.length → 6 ≤ packetLength b → packetLength b ≤ 256 → b.length < packetLength b →
            frame = .next { s with hli := h (some b), mge := m })
          ∧ (2 ≤ b.length → 6 ≤ packetLength b → packetLength b ≤ 256 → packetLength b ≤ b.length →
            let p := b.take (packetLength b)
            let a : State := { s with hli := { h none with attended := true, silenceTimer := some 0 }, mge := m }
            let place := fun u : State => { u with hli := { u.hli with replyQueue := s.hli.replyQueue ++ [placeOfPacket p] } }
            (packetCrcOk p = true → s.hli.replyQueue.length < 4 →
                s.mge.batch = none ∨ s.nextRecord ≠ none ∨ (placeOfPacket p).waiting = [] → frame = .next (place a))
              ∧ (packetCrcOk p = true → s.hli.replyQueue.length < 4 → s.mge.batch ≠ none → s.nextRecord = none →
                (placeOfPacket p).waiting ≠ [] → frame = .next (place (State.settle { a with mge := { m with batch := none } })))
              ∧ (packetCrcOk p = true → 4 ≤ s.hli.replyQueue.length → frame
                = .next { a with mge := { m with flags := flagsSet .laneOverrun m.flags } })
              ∧ (packetCrcOk p = false → frame = .next { s with hli := h none, mge := { m with flags := flagsSet .laneError m.flags } }))

/-- HALL_FRAME_SEND: a frame of 34 bytes with the start byte, the upstream frame number, the mix sample and the frame check; the number advances; with
the link not UP, or nothing to send, the lane is empty and nothing else changes. A free lane begins the oldest ready reply, and without one a packet
of the 8 oldest notices, which leave the queue; each frame carries the next 4 bytes, the first with the packet-start mark; the last byte of a reply
releases its place, and that of a notice packet only frees the lane (R166, R169, R175). That a ready reply begins while an older place is not ready,
which only a MALFORMED reply can come to, is the model's choice, log entry 17. -/
def Obligations.HallFrameSendBuildsFrame : Prop :=
  (∀ s : State, s.running = true → ∃ h f, exec .hallFrameSend s = .next { s with hli := h, hallOut := some f }
      ∧ f.length = 34 ∧ f.getD 0 0 = 0x3C ∧ f.getD 1 0 = s.hli.upFrame ∧ (f.getD 2 0).getLsbD 7 = s.attention
      ∧ (f.getD 2 0).getLsbD 6 = s.hli.attended ∧ (f.drop 31).take 2 = s16 s.fmx.mixSample ∧ f.getD 33 0 = crc8 ((f.drop 1).take 32)
      ∧ h = { s.hli with upFrame := s.hli.upFrame + 1, laneSender := h.laneSender, replyQueue := h.replyQueue, noticeQueue := h.noticeQueue })
    ∧ ∀ s : State, s.running = true →
      let sends := fun (h : Hli) (start : Bool) (bytes : List Byte) => exec .hallFrameSend s = .next { s with
        hli := { h with upFrame := s.hli.upFrame + 1 }
        hallOut := some (hallFrame s.hli.upFrame s.attention s.hli.attended start bytes (s.fmx.chans.toList.map FmxChan.slotSample)
          s.fmx.mixSample) }
      ((s.hli.link ≠ .up ∨ (s.hli.laneSender = none ∧ (∀ p ∈ s.hli.replyQueue, p.waiting ≠ []) ∧ s.hli.noticeQueue = [])) →
          sends s.hli false [])
        ∧ (∀ before p rest, s.hli.link = .up → s.hli.laneSender = none → s.hli.replyQueue = before ++ p :: rest →
          (∀ b ∈ before, b.waiting ≠ []) → p.waiting = [] →
          sends { s.hli with laneSender := some ⟨.reply before.length, replyPacket p, 4⟩ } true ((replyPacket p).take 4))
        ∧ (s.hli.link = .up → s.hli.laneSender = none → (∀ p ∈ s.hli.replyQueue, p.waiting ≠ []) → s.hli.noticeQueue ≠ [] →
          let packet := noticePacket (s.hli.noticeQueue.take 8)
          sends { s.hli with laneSender := some ⟨.notices (min 8 s.hli.noticeQueue.length), packet, 4⟩, noticeQueue := s.hli.noticeQueue.drop 8 }
            true (packet.take 4))
        ∧ (∀ source bytes n, s.hli.link = .up → s.hli.laneSender = some ⟨source, bytes, n⟩ → n + 4 < bytes.length →
          sends { s.hli with laneSender := some ⟨source, bytes, n + 4⟩ } (n == 0) ((bytes.drop n).take 4))
        ∧ (∀ i bytes n, s.hli.link = .up → s.hli.laneSender = some ⟨.reply i, bytes, n⟩ → bytes.length ≤ n + 4 →
          sends { s.hli with laneSender := none, replyQueue := s.hli.replyQueue.eraseIdx i } (n == 0) ((bytes.drop n).take 4))
        ∧ ∀ count bytes n, s.hli.link = .up → s.hli.laneSender = some ⟨.notices count, bytes, n⟩ → bytes.length ≤ n + 4 →
          sends { s.hli with laneSender := none } (n == 0) ((bytes.drop n).take 4)

/-- MIX_COMPUTATION: n counts the OPEN channels whose gate is active, N is its attenuation while NOM attenuation is on, each OPEN channel's
input is gained on both paths, the mix sample is the saturated sum and each slot sample its saturated product, and a saturation sets CLIP;
no other state changes but the time base, which passes on to a decisecond expiry at the 1600th frame time (R153, R154, R155, R156, R157,
R158, R159, R160; the time base ticking here, the mix before the expiry, and the fresh mark cleared on FREE channels too, are the model's choices,
log entries 9, 32 and 36). -/
def Obligations.MixComputationSumsOpenChannels : Prop :=
  ∀ s : State, s.running = true →
    let n := allChans.countP fun c => (s.chan c).state = .opened && (s.slmOf c).gateActive
    let att := if s.mge.settings.nomAttenuation then nomTable n else 0
    let input := fun c => if (s.fmxOf c).fresh then (s.fmxOf c).latest else 0
    let path := fun (c : Fin 12) (offset : ClassRec → Int) =>
      match (s.chan c).state, (s.chan c).seat with
      | .opened, some x => gained (input c) (multiplier (clampGain ((s.seatRec x).trim + offset (s.classOf x))))
      | _, _ => 0
    let total := (allChans.map fun c => path c fun r => r.offset - att).sum
    let clip := total ≠ saturate16 total ∨ ∃ c, path c (fun _ => 0) ≠ saturate16 (path c fun _ => 0)
    ∃ m : Fmx, ∃ flags : BitVec 14,
      (m.mixSample = saturate16 total ∧ m.nomCount = n ∧ m.attenuation = att ∧ (m.clipped = true ↔ clip)
        ∧ ∀ c, (vget m.chans c).slotSample = saturate16 (path c fun _ => 0) ∧ (vget m.chans c).fresh = false
          ∧ (vget m.chans c).latest = (s.fmxOf c).latest)
      ∧ (clip → flags = flagsSet .clip s.mge.flags) ∧ (¬ clip → flags = s.mge.flags)
      ∧ (s.mge.decisecondPhase + 1 < 1600 → exec .mixComputation s
          = .next { s with fmx := m, mge := { s.mge with flags := flags, decisecondPhase := s.mge.decisecondPhase + 1 } })
      ∧ (1600 ≤ s.mge.decisecondPhase + 1 → exec .mixComputation s
          = exec .decisecondExpiry { s with fmx := m, mge := { s.mge with flags := flags } })

/-- The product of a sample and a multiplier is rounded to the nearest whole number, a half upwards, and lies in -65536..65534; it stays within 16
bits for a gain code of 0 or below, and a gain code of 0 leaves every sample as it is (R156, R157). -/
def Obligations.ProductRoundsHalfUp : Prop :=
  (∀ (x : Int) (m : Nat), gained x m = ⌊(((x * m + 8192 : Int) : Rat) / 16384)⌋)
    ∧ (∀ (x : Int) (m : Nat), -32768 ≤ x → x ≤ 32767 → m ≤ 32768 → -65536 ≤ gained x m ∧ gained x m ≤ 65534)
    ∧ (∀ g : Int, multiplier (clampGain g) ≤ 32768)
    ∧ (∀ (x : Int) (m : Nat), -32768 ≤ x → x ≤ 32767 → m ≤ 16384 → -32768 ≤ gained x m ∧ gained x m ≤ 32767)
    ∧ (∀ g : Int, g ≤ 0 → multiplier (clampGain g) ≤ 16384) ∧ multiplier (clampGain 0) = 16384
    ∧ ∀ x : Int, gained x 16384 = x

/-! ### Time, notices, placements, promotion -/

/-- DECISECOND_EXPIRY: in ascending channel number the clock of every OPEN channel advances by 1 and is compared; then every confirm deadline is
lowered by 1, and the offers whose deadline comes to 0 lapse in list order; the decisecond phase returns to 0, the second phase advances, and the
tenth brings the second expiry. A comparison with an allowance warns once, with WARN placed and notice WARN, then expires once, with SPEAK_EXPIRED and
EXPIRED, and under expiry action CLOSE takes the channel to CLOSING with cause TIME and its clock added to the seat's total. A lapse ends the offer:
entry removed, lapsed count and OFFER_LAPSED, WITHDRAW placed, channel freed with cause TIME. Where no comparison and no deadline is due, only clocks,
deadlines and phases change (R60, R63, R78, R84, R96, R136, R137, R139, R140, R141, R143, R150). The model's choices: the order of the second expiry
(log entry 10), and that a DECISECOND_EXPIRY command taken at any phase sets the decisecond phase to 0 (log entry 9). -/
def Obligations.DecisecondAdvancesOpenClocks : Prop :=
  (∀ s : State, s.running = true → s.noPromotionOwed →
      (∀ c x, (s.chan c).state = .opened → (s.chan c).seat = some x → s.allowanceOf x = 0
        ∨ (min 999999 ((s.slmOf c).clock + 1) < s.allowanceOf x * 10
          ∧ (s.mge.settings.warnLead = 0 ∨ (s.slmOf c).warned = true
            ∨ min 999999 ((s.slmOf c).clock + 1) < (s.allowanceOf x - s.mge.settings.warnLead) * 10))) →
      (∀ e ∈ s.far.list, ∀ d, e.deadline = some d → 2 ≤ d) →
      let slm := Vector.ofFn fun c =>
        if (s.chan c).state = .opened then { s.slmOf c with clock := min 999999 ((s.slmOf c).clock + 1) } else s.slmOf c
      let far := { s.far with list := s.far.list.map fun e => { e with deadline := e.deadline.map fun d => d - 1 } }
      (s.mge.secondPhase + 1 < 10 → exec .decisecondExpiry s
          = .next { s with slm := slm, far := far, mge := { s.mge with decisecondPhase := 0, secondPhase := s.mge.secondPhase + 1 } })
        ∧ (10 ≤ s.mge.secondPhase + 1 → exec .decisecondExpiry s
          = exec .secondExpiry { s with slm := slm, far := far, mge := { s.mge with decisecondPhase := 0 } }))
    ∧ (∀ s : State, s.running = true →
      let compared := allChans.foldl (fun a c =>
        if (a.chan c).state = .opened then
          State.comparison c { a with slm := vset a.slm c { a.slmOf c with clock := min 999999 ((a.slmOf c).clock + 1) } }
        else a) { s with mge := { s.mge with decisecondPhase := 0 } }
      let lowered := compared.far.list.map fun e => { e with deadline := e.deadline.map fun d => d - 1 }
      let due := (lowered.filter fun e => e.deadline = some 0).map fun e => e.seat
      let u := State.settle (due.foldl (fun a x => a.lapse x) { compared with far := { compared.far with list := lowered } })
      (u.mge.secondPhase + 1 < 10 → exec .decisecondExpiry s
          = .next { u with mge := { u.mge with secondPhase := u.mge.secondPhase + 1 } })
        ∧ (10 ≤ u.mge.secondPhase + 1 → exec .decisecondExpiry s = exec .secondExpiry u))
    ∧ (∀ (s : State) (c : Fin 12) (x : Seat), (s.chan c).state = .opened → (s.chan c).seat = some x →
      let a := s.allowanceOf x
      let lead := s.mge.settings.warnLead
      let clock := (s.slmOf c).clock
      let warned : State :=
        if a ≠ 0 ∧ lead ≠ 0 ∧ (s.slmOf c).warned = false ∧ (a - lead) * 10 ≤ clock then
          State.notify (.warn c x clock a lead) (State.place x .warn { s with slm := vset s.slm c { s.slmOf c with warned := true } })
        else s
      let expired : State :=
        if (s.slmOf c).overrun then warned
        else State.notify (.expired c x clock a (s.classOf x).action) { warned with
          slm := vset warned.slm c { warned.slmOf c with overrun := true }
          mge := { warned.mge with flags := flagsSet .speakExpired warned.mge.flags } }
      (a = 0 ∨ clock < a * 10 → s.comparison c = warned)
        ∧ (a ≠ 0 → a * 10 ≤ clock → (s.classOf x).action = .notify → s.comparison c = expired)
        ∧ (a ≠ 0 → a * 10 ≤ clock → (s.classOf x).action = .close → expired.closingOf c x .time (s.comparison c)))
    ∧ ∀ (s : State) (x : Seat) (e : Entry) (i : Nat) (c : Fin 12), s.entryOf x = some e → e.state = .offered → s.listIndex x = some i →
      s.chanOf x = some c → (s.chan c).state = .offered →
      State.freed { s with mge := { s.mge with lapsed := min 65535 (s.mge.lapsed + 1), flags := flagsSet .offerLapsed s.mge.flags } } c
        (s.far.list.eraseIdx i) (s.place x .withdraw).trunks [.listRemove x .lapsed i (s.far.list.length - 1), .chClose c x .time 0] (s.lapse x)

/-- SECOND_EXPIRY lets a running silence timer count; SILENCE_TIMER_EXPIRY, when the timer stands at or past a nonzero limit, makes an
ATTENDED engine UNATTENDED, stops the timer, sets FALLBACK, and clears the claim and force-return with one LIST_CONTROL notice (R133, R136,
R177). The model's choices: SILENCE_TIMER_EXPIRY acts as a command of its own on any timer at or past the limit (log entry 26) and does nothing on a
stopped timer (log entry 1), and a SECOND_EXPIRY command sets the second phase to 0 (log entry 9). -/
def Obligations.SilenceTimerLeadsToFallback : Prop :=
  (∀ s : State, s.running = true → s.hli.silenceTimer = none → exec .silenceTimerExpiry s = .next s
      ∧ exec .secondExpiry s = .next { s with mge := { s.mge with secondPhase := 0 } })
    ∧ (∀ (s : State) (n : Nat), s.running = true → s.hli.silenceTimer = some n →
        s.mge.settings.silenceLimit = 0 ∨ min 255 (n + 1) < s.mge.settings.silenceLimit → exec .secondExpiry s
          = .next { s with mge := { s.mge with secondPhase := 0 }, hli := { s.hli with silenceTimer := some (min 255 (n + 1)) } })
    ∧ (∀ (s : State) (n : Nat), s.running = true → s.hli.silenceTimer = some n → s.mge.settings.silenceLimit ≠ 0 →
        s.mge.settings.silenceLimit ≤ min 255 (n + 1) → exec .secondExpiry s = exec .silenceTimerExpiry
          { s with mge := { s.mge with secondPhase := 0 }, hli := { s.hli with silenceTimer := some (min 255 (n + 1)) } })
    ∧ (∀ (s : State) (n : Nat), s.running = true → s.hli.silenceTimer = some n → s.mge.settings.silenceLimit ≠ 0 →
        s.mge.settings.silenceLimit ≤ n → s.hli.attended = true →
        (s.far.claimed = false → s.far.forceReturn = false → exec .silenceTimerExpiry s
          = .next { s with
              hli := { s.hli with attended := false, silenceTimer := none }
              mge := { s.mge with flags := flagsSet .fallback s.mge.flags } })
          ∧ (s.far.claimed = true ∨ s.far.forceReturn = true → exec .silenceTimerExpiry s
            = .next (State.notify (.listControl false s.far.holder false) { s with
              hli := { s.hli with attended := false, silenceTimer := none }
              mge := { s.mge with flags := flagsSet .fallback s.mge.flags }
              far := { s.far with claimed := false, forceReturn := false } })))

/-- On an OPEN channel SPEAK_WARNING marks the channel warned, places WARN and queues notice WARN, once; SPEAK_EXPIRY sets SPEAK_EXPIRED and
queues EXPIRED once, and under expiry action CLOSE closes the channel with cause TIME, its clock added to the seat's speaking total (R139,
R140, R141, R143, R150, R60; the two rows as commands of their own are the model's choice, log entry 26). -/
def Obligations.SpeakingLimitWarnsAndExpires : Prop :=
  ∀ (s : State) (c : Fin 12) (x : Seat), s.running = true → (s.chan c).state = .opened → (s.chan c).seat = some x → s.allowanceOf x ≠ 0 →
    (s.mge.settings.warnLead ≠ 0 → (s.allowanceOf x - s.mge.settings.warnLead) * 10 ≤ (s.slmOf c).clock → (s.slmOf c).warned = false →
        exec (.speakWarning c) s = .next (State.notify (.warn c x (s.slmOf c).clock (s.allowanceOf x) s.mge.settings.warnLead)
          (State.place x .warn { s with slm := vset s.slm c { s.slmOf c with warned := true } })))
      ∧ ((s.slmOf c).warned = true → exec (.speakWarning c) s = .next s)
      ∧ (s.allowanceOf x * 10 ≤ (s.slmOf c).clock → (s.slmOf c).overrun = false → (s.classOf x).action = .notify →
        exec (.speakExpiry c) s = .next (State.settle (State.notify (.expired c x (s.slmOf c).clock (s.allowanceOf x) .notify)
          { s with
            slm := vset s.slm c { s.slmOf c with overrun := true }
            mge := { s.mge with flags := flagsSet .speakExpired s.mge.flags } })))
      ∧ (s.allowanceOf x * 10 ≤ (s.slmOf c).clock → (s.slmOf c).overrun = true → (s.classOf x).action = .notify →
        exec (.speakExpiry c) s = .next s.settle)
      ∧ (s.allowanceOf x * 10 ≤ (s.slmOf c).clock → (s.classOf x).action = .close → ∃ u : State, exec (.speakExpiry c) s = .next u.settle
        ∧ u.chan c = { s.chan c with state := .closing, closeCause := some .time } ∧ (∀ d, d ≠ c → u.chan d = s.chan d)
        ∧ u.far = { s.far with channels := u.far.channels }
        ∧ u.slm = vset s.slm c ((fun m : SlmChan => { m with overrun := true, progress := none, exponent := none, sum := 0 }) (s.slmOf c))
        ∧ u.stb = (s.modSeat x fun r => { r with speakingTotal := min 999999 (r.speakingTotal + (s.slmOf c).clock) }).stb
        ∧ u.trunks = (s.place x .close).trunks ∧ u.fmx = s.fmx
        ∧ (if (s.slmOf c).overrun then s else s.setFlag .speakExpired).onlyNotices
          (if (s.slmOf c).overrun then [] else [.expired c x (s.slmOf c).clock (s.allowanceOf x) .close]) u)

/-- OFFER_LAPSE of an OFFERED seat whose deadline comes to 0: the entry leaves the list, WITHDRAW is placed, the channel is freed, the lapsed count
rises and OFFER_LAPSED is set; LIST_REMOVE and CH_CLOSE are queued; a freed channel is a promotion trigger (R78, R84, R63, R70, R96). A deadline not
due is no lapse (the model's choice, log entry 1; the row as a command of its own, log entry 26). -/
def Obligations.OfferLapseFreesChannel : Prop :=
  (∀ (s : State) (x : Seat) (e : Entry) (d i : Nat) (c : Fin 12), s.running = true → s.entryOf x = some e → e.state = .offered →
      e.deadline = some d → d ≤ 1 → s.listIndex x = some i → s.chanOf x = some c → (s.chan c).state = .offered → ∃ u : State,
        exec (.offerLapse x) s = .next u.settle
        ∧ u.chan c = Channel.reset ∧ (∀ k, k ≠ c → u.chan k = s.chan k)
        ∧ u.far = { s.far with
            channels := u.far.channels
            openSeq := s.far.openSeq.filter fun k => k ≠ c
            list := s.far.list.eraseP fun a => a.seat = x
            promotionDeferred := true }
        ∧ u.stb = s.stb ∧ u.slm = s.slm ∧ u.fmx = s.fmx ∧ u.trunks = (s.place x .withdraw).trunks
        ∧ State.onlyNotices (State.setFlag .offerLapsed (s.modMge fun m => { m with lapsed := min 65535 (m.lapsed + 1) }))
          [.listRemove x .lapsed i (s.far.list.length - 1), .chClose c x .time 0] u)
    ∧ (∀ (s : State) (x : Seat) (e : Entry) (d : Nat), s.running = true → s.entryOf x = some e → e.deadline = some d → 2 ≤ d →
        exec (.offerLapse x) s = .next s)

/-- LEVEL_WINDOW_COMPLETE takes the last sample of an OPEN channel's window: the level result is the sum shifted by the exponent, gate and
silence count follow the thresholds, and a new window starts; SILENCE_RELEASE closes an OPEN channel whose silence count has come to the
setting and whose class releases on silence, and no other. A window that a frame has filled completes in the same way: its channel is closed when that
test passes, and otherwise its next window starts; one that is not full stays (R144, R145, R147, R148; the two rows as commands of their own are the
model's choice, log entry 26). -/
def Obligations.LevelWindowGatesAndReleases : Prop :=
  (∀ (s : State) (c : Fin 12) (x : Seat) (slot : Option (BitVec 16)) (p k : Nat), s.running = true → (s.chan c).state = .opened →
      (s.chan c).seat = some x → (s.slmOf c).progress = some p → (s.slmOf c).exponent = some k → p + 1 = 2 ^ k →
      s.mge.settings.levelMonitor = true →
      let sum := (s.slmOf c).sum + (match slot with | some w => w.toInt.natAbs | none => 0)
      let l := sum / 2 ^ k
      let silent := if l < s.mge.settings.releaseThreshold then min 255 ((s.slmOf c).silenceCount + 1) else 0
      ((s.classOf x).silenceRelease = false ∨ silent < s.mge.settings.silenceCountSetting) →
      exec (.levelWindowComplete c slot) s = .next (State.settle { s with
        slm := vset s.slm c { s.slmOf c with
          level := some l
          gateActive := decide (s.mge.settings.gateThreshold ≤ l)
          silenceCount := silent
          progress := some 0
          exponent := some s.mge.settings.windowExponent
          sum := 0 }
        fmx := { s.fmx with chans := vset s.fmx.chans c { s.fmxOf c with
          latest := match slot with | some w => w.toInt | none => 0
          fresh := true } } }))
    ∧ (∀ (s : State) (c : Fin 12) (x : Seat), s.running = true → (s.chan c).state = .opened → (s.chan c).seat = some x →
        s.mge.settings.levelMonitor = true → s.mge.settings.silenceCountSetting ≤ (s.slmOf c).silenceCount →
        (s.classOf x).silenceRelease = true → ∃ u : State, exec (.silenceRelease c) s = .next u.settle
          ∧ u.chan c = { s.chan c with state := .closing, closeCause := some .silence } ∧ (∀ d, d ≠ c → u.chan d = s.chan d)
          ∧ u.far = { s.far with channels := u.far.channels }
          ∧ u.slm = vset s.slm c { s.slmOf c with progress := none, exponent := none, sum := 0 }
          ∧ u.stb = (s.modSeat x fun r => { r with speakingTotal := min 999999 (r.speakingTotal + (s.slmOf c).clock) }).stb
          ∧ u.trunks = (s.place x .close).trunks ∧ u.fmx = s.fmx ∧ s.onlyNotices [] u)
    ∧ (∀ (s : State) (c : Fin 12) (x : Seat), s.running = true → (s.chan c).seat = some x →
        ((s.slmOf c).silenceCount < s.mge.settings.silenceCountSetting ∨ (s.classOf x).silenceRelease = false) →
        s.mge.settings.levelMonitor = true → exec (.silenceRelease c) s = .next s.settle)
    ∧ (∀ (s : State) (c : Fin 12) (slot : Option (BitVec 16)) (p k : Nat), s.running = true → (s.slmOf c).progress = some p →
        (s.slmOf c).exponent = some k → p + 1 = 2 ^ k → exec (.levelWindowComplete c slot) s = .next (State.settle (State.finishWindow { s with
          slm := vset s.slm c { s.slmOf c with
            progress := some (p + 1), sum := (s.slmOf c).sum + (match slot with | some w => w.toInt.natAbs | none => 0) }
          fmx := { s.fmx with chans := vset s.fmx.chans c { s.fmxOf c with
            latest := match slot with | some w => w.toInt | none => 0
            fresh := true } } } c)))
    ∧ ∀ (s : State) (c : Fin 12) (x : Seat) (p k : Nat), (s.chan c).state = .opened → (s.chan c).seat = some x →
        (s.slmOf c).progress = some p → (s.slmOf c).exponent = some k → s.mge.settings.levelMonitor = true →
        let l := (s.slmOf c).sum / 2 ^ k
        let silent := if l < s.mge.settings.releaseThreshold then min 255 ((s.slmOf c).silenceCount + 1) else 0
        let ended := { s.slmOf c with
          level := some l, gateActive := decide (s.mge.settings.gateThreshold ≤ l), silenceCount := silent
          progress := none, exponent := none, sum := 0 }
        (p < 2 ^ k → s.finishWindow c = s)
          ∧ (2 ^ k ≤ p → (s.classOf x).silenceRelease = true → s.mge.settings.silenceCountSetting ≤ silent →
            let u := s.finishWindow c
            u.chan c = { s.chan c with state := .closing, closeCause := some .silence } ∧ (∀ d, d ≠ c → u.chan d = s.chan d)
              ∧ u.far = { s.far with channels := u.far.channels } ∧ u.slm = vset s.slm c ended ∧ u.fmx = s.fmx
              ∧ u.stb = (s.modSeat x fun r => { r with speakingTotal := min 999999 (r.speakingTotal + (s.slmOf c).clock) }).stb
              ∧ u.trunks = (s.place x .close).trunks ∧ s.onlyNotices [] u)
          ∧ (2 ^ k ≤ p → (s.classOf x).silenceRelease = false ∨ silent < s.mge.settings.silenceCountSetting →
            s.finishWindow c = { s with
              slm := vset s.slm c { ended with progress := some 0, exponent := some s.mge.settings.windowExponent } })

/-- A notice of a disabled kind leaves everything as it is; an enabled one joins the queue as the newest, or on a full queue of 32 is counted
lost and sets NOTICE_LOST (R173). -/
def Obligations.NoticesPassMaskAndQueue : Prop :=
  ∀ (n : Notice) (s : State),
    (s.hli.noticeMask.getLsbD (n.code - 1) = false → s.notify n = s)
      ∧ (s.hli.noticeMask.getLsbD (n.code - 1) = true → s.hli.noticeQueue.length < 32 →
        s.notify n = { s with hli := { s.hli with noticeQueue := s.hli.noticeQueue ++ [n] } })
      ∧ (s.hli.noticeMask.getLsbD (n.code - 1) = true → 32 ≤ s.hli.noticeQueue.length → s.notify n
        = { s with mge := { s.mge with noticesLost := min 255 (s.mge.noticesLost + 1), flags := flagsSet .noticeLost s.mge.flags } })

/-- A command placed for a seat that is not PRESENT, or on a trunk that is not UP, is discarded; one for a position without an unsent command
joins the queue last; otherwise the two are combined by the table of R32, which keeps one unsent command for each position (R31, R32). -/
def Obligations.PlacementCombinesUnsentCommands : Prop :=
  (∀ (s : State) (x : Seat) (cmd : Cmd), (s.tpc x.trunk).link ≠ .up ∨ (s.seatRec x).availability ≠ .present → s.place x cmd = s)
    ∧ (∀ (s : State) (x : Seat) (cmd : Cmd), (s.tpc x.trunk).link = .up → (s.seatRec x).availability = .present → s.unsent x = none →
        s.place x cmd = { s with
          trunks := vset s.trunks x.trunk { s.tpc x.trunk with queue := (s.tpc x.trunk).queue ++ [⟨some x.pos, cmd⟩] } })
    ∧ (∀ (s : State) (x : Seat) (old cmd : Cmd), (s.tpc x.trunk).link = .up → (s.seatRec x).availability = .present →
        s.unsent x = some old → ((s.tpc x.trunk).queue.map QEntry.target).Nodup →
        State.unsent (s.place x cmd) x = (coalesce old cmd).1
          ∧ (((s.place x cmd).tpc x.trunk).queue.map QEntry.target).Nodup
          ∧ (∀ y : Seat, y ≠ x → (s.place x cmd).unsent y = s.unsent y))
    ∧ (∀ k m k' m', coalesce (.openMic k m) .close = (none, .openDropped) ∧ coalesce .offer .withdraw = (none, .nothing)
        ∧ coalesce .mute .unmute = (none, .muteDropped) ∧ coalesce .unmute .mute = (none, .unmuteDropped)
        ∧ coalesce .close .mute = (some .close, .nothing) ∧ coalesce .close .unmute = (some .close, .nothing)
        ∧ coalesce .close (.openMic k m) = (some (.openMic k m), .closeReplaced)
        ∧ coalesce .offer (.openMic k m) = (some (.openMic k m), .nothing)
        ∧ coalesce .queued (.openMic k m) = (some (.openMic k m), .nothing) ∧ coalesce (.openMic k m) .warn = (some (.openMic k m), .nothing)
        ∧ coalesce .queued .refused = (some .refused, .nothing) ∧ coalesce (.openMic k m) (.openMic k' m') = (some (.openMic k' m'), .nothing))

/-- The end of a handling: with a batch open, or with no trigger made, nothing happens; otherwise the mark is cleared, and outside LIST mode one run
passes over the list from the head: an entry that may be promoted as things stand at its turn, WAITING and of an eligible seat, is promoted, and any
other is passed over. A promotion with confirm on makes an offer: the entry becomes OFFERED, and the lowest FREE channel and talk slot are reserved;
with confirm off it gives the floor: the entry leaves the list and the channel goes to OPENING with OPEN placed (R53, R78, R82, R109, R110). -/
def Obligations.PromotionRunsAtEndOfHandling : Prop :=
  (∀ s : State, s.noPromotionOwed → s.settle = s)
    ∧ (∀ s : State, s.mge.batch = none → s.far.promotionDeferred = true →
        let clear : State := { s with far := { s.far with promotionDeferred := false } }
        let run := fun (l : List Entry) (a : State) => l.foldl (fun a e => if a.promotable e.seat then a.promote e.seat else a) a
        (s.mge.settings.mode = .list ∨ (∀ e ∈ s.far.list, s.promotable e.seat = false) → s.settle = clear)
          ∧ (s.mge.settings.mode ≠ .list → s.settle = run s.far.list clear)
          ∧ (∀ (a : State) (before rest : List Entry) (e : Entry), (∀ b ∈ before, a.promotable b.seat = false) → a.promotable e.seat = true →
            run (before ++ e :: rest) a = run rest (a.promote e.seat))
          ∧ ∀ before e rest, s.mge.settings.mode ≠ .list → s.far.list = before ++ e :: rest → (∀ b ∈ before, s.promotable b.seat = false) →
            s.promotable e.seat = true → (∀ b ∈ rest, State.promotable (clear.promote e.seat) b.seat = false) →
            s.settle = clear.promote e.seat)
    ∧ (∀ (s : State) (x : Seat), s.promotable x = true ↔ s.eligible x = true ∧ ∃ e, s.entryOf x = some e ∧ e.state = .waiting)
    ∧ (∀ (s : State) (x : Seat) (i : Nat) (c : Fin 12) (k : Fin 6), s.promotable x = true → s.listIndex x = some i →
        s.freeChan = some c → s.freeSlot none x.trunk = some k →
        let u := s.promote x
        let ch : Channel := ⟨.opening, some x, some x.trunk, some k, some (s.levelOf x), some (s.kindOf x), some .promoted, some false, some false,
          none, none⟩
        let audio := u.slm = vset s.slm c SlmChan.reset
          ∧ u.fmx = { s.fmx with chans := vset s.fmx.chans c { s.fmxOf c with latest := 0, fresh := false } }
        (s.mge.settings.confirm = true →
            u.far = { s.far with
                channels := vset s.far.channels c { ch with state := .offered, mutedAtOpen := none }
                openSeq := s.far.openSeq ++ [c]
                list := s.far.list.map fun e => if e.seat = x then
                  { e with state := .offered, window := some s.mge.settings.confirmWindow, deadline := none } else e }
              ∧ audio ∧ u.trunks = (s.place x .offer).trunks ∧ u.stb = s.stb
              ∧ s.onlyNotices [.offer x c (some k) s.mge.settings.confirmWindow] u)
          ∧ (s.mge.settings.confirm = false → s.unsent x ≠ some .close →
            u.far = { s.far with
                channels := vset s.far.channels c ch, openSeq := s.far.openSeq ++ [c], list := s.far.list.eraseIdx i }
              ∧ audio ∧ u.trunks = (s.place x (.openMic k false)).trunks ∧ u.stb = s.stb
              ∧ s.onlyNotices [.listRemove x .opened i (s.far.list.length - 1)] u))
    ∧ (∀ (s : State) (e : Entry) (c : Fin 12) (k : Fin 6), s.mge.batch = none → s.far.promotionDeferred = true →
        s.mge.settings.mode ≠ .list → s.far.list = [e] → e.state = .waiting → s.eligible e.seat = true → s.mge.settings.confirm = true →
        s.freeChan = some c → s.freeSlot none e.seat.trunk = some k →
        let u := s.settle
        u.far.list = [{ e with state := .offered, window := some s.mge.settings.confirmWindow, deadline := none }]
          ∧ u.chan c = ⟨.offered, some e.seat, some e.seat.trunk, some k, some (s.levelOf e.seat), some (s.kindOf e.seat), some .promoted, none,
              some false, none, none⟩
          ∧ (∀ d, d ≠ c → u.chan d = s.chan d) ∧ u.far.openSeq = s.far.openSeq ++ [c] ∧ u.far.promotionDeferred = false
          ∧ u.trunks = (s.place e.seat .offer).trunks ∧ u.stb = s.stb
          ∧ s.onlyNotices [.offer e.seat c (some k) s.mge.settings.confirmWindow] u)

/-! ### Trunks and seat events -/

/-- A trunk follows its frame runs. It trains on good frames: DOWN to TRAINING at the first, UP at the 64th in a row (which TRUNK_UP names), where a
census starts when auto-census is on. A good frame of an UP trunk ends a bad run and is handled in this order: its two event positions, the second on
the state the first leaves; the attempt in flight, which the acknowledgement of its position in the answer to its frame completes, which any other
answer to its frame or to a later one fails, and which waits otherwise; its talk slots, each for the channel that holds it, as FMX's latest sample and
SLM's next frame of a running window, and the windows this fills, in ascending channel number. Without a good frame a TRAINING trunk loses its good
run and goes DOWN at the 8th such frame time in a row (which TRUNK_TRAINING_FAIL names), and an UP trunk counts it, short of the 8th. A DOWN or HELD
trunk does not count bad frame times, and a HELD one classes no frame. The TPC classes the bytes itself, so the two frame rows agree (R23, R24, R26,
R30, R34, R35, R36, R39, R43, R144, R147, R152). The model's choices: that agreement (log entry 2); that TRUNK_UP with a good frame,
TRUNK_TRAINING_FAIL and TRUNK_LINK_LOST leave the state as it is when their event is not due (log entry 1); and the order of events, acknowledgement
and talk slots in one frame, with a promotion run after each (log entry 7). -/
def Obligations.TrunkFollowsFrameRuns : Prop :=
  (∀ (s : State) (t : Fin 4) (f : List Byte), exec (.trunkFrameMalformed t f) s = exec (.trunkFrameGood t f) s)
    ∧ (∀ (s : State) (t : Fin 4) (f : List Byte), s.running = true → (s.tpc t).goodFrame f = true →
      let p : Tpc := { s.tpc t with lastAnswered := some (f.getD 1 0) }
      ((s.tpc t).link = .down → exec (.trunkFrameGood t f) s
          = .next (State.notify (.trunk t .training) { s with trunks := vset s.trunks t { p with link := .training, goodRun := 1, badRun := 0 } }))
        ∧ ((s.tpc t).link = .training → (s.tpc t).goodRun + 1 < 64 → exec (.trunkUp t f) s = .next s ∧ exec (.trunkFrameGood t f) s
          = .next { s with trunks := vset s.trunks t { p with goodRun := p.goodRun + 1, badRun := 0 } })
        ∧ ((s.tpc t).link = .training → (s.tpc t).goodRun = 63 → exec (.trunkFrameGood t f) s = exec (.trunkUp t f) s
          ∧ exec (.trunkUp t f) s = .next (State.notify (.trunk t .up) { s with
            trunks := vset s.trunks t (if s.mge.settings.autoCensus then
                { p with link := .up, goodRun := 64, badRun := 0, censusRunning := true, probed := 0, presentCount := 0, nextProbe := 1 }
              else { p with link := .up, goodRun := 64, badRun := 0 }) }))
        ∧ ((s.tpc t).link = .held → exec (.trunkFrameGood t f) s = .next s)
        ∧ ((s.tpc t).link = .up → s.noPromotionOwed → upEventAt f 2 = none → upEventAt f 5 = none → (s.tpc t).inFlight = none →
          (∀ c, (s.chan c).trunk ≠ some t) → exec (.trunkFrameGood t f) s
            = .next { s with trunks := vset s.trunks t { p with badRun := 0 } })
        ∧ ((s.tpc t).link = .up → ∃ u1 u2 u3 v : State,
          State.eventPosition { s with trunks := vset s.trunks t { p with badRun := 0 } } t (upEventAt f 2) u1
          ∧ u1.eventPosition t (upEventAt f 5) u2
          ∧ ((u2.tpc t).inFlight = none → u3 = u2.settle)
          ∧ (∀ a, (u2.tpc t).inFlight = some a →
            let age := fun number : Byte => ((u2.tpc t).nextFrame - 1 - number).toNat
            (a.status = .retry ∨ (a.frame ≠ f.getD 1 0 ∧ age a.frame ≤ age (f.getD 1 0)) → u3 = u2.settle)
              ∧ (∀ k i, a.status = .sent → a.frame = f.getD 1 0 → upAck f = some k → k.position.val = posNumber a.pos →
                completionOf a.cmd ⟨t, a.pos⟩ k.result k.data = some i → exec i u2 = .next u3)
              ∧ (a.status = .sent → (a.frame = f.getD 1 0 ∧ ∀ k, upAck f = some k → k.position.val ≠ posNumber a.pos)
                  ∨ (a.frame ≠ f.getD 1 0 ∧ age (f.getD 1 0) < age a.frame) → exec (.commandAttemptFailed t) u2 = .next u3))
          ∧ v = { u3 with slm := v.slm, fmx := { u3.fmx with chans := v.fmx.chans } }
          ∧ (∀ c k, u3.slotHolder none t k = some c →
            v.fmxOf c = { u3.fmxOf c with latest := match upSlot f k with | some w => w.toInt | none => 0, fresh := true }
              ∧ ((u3.slmOf c).progress = none → v.slmOf c = u3.slmOf c)
              ∧ ∀ n, (u3.slmOf c).progress = some n → v.slmOf c = { u3.slmOf c with
                progress := some (n + 1), sum := (u3.slmOf c).sum + (match upSlot f k with | some w => w.toInt.natAbs | none => 0) })
          ∧ (∀ c, (∀ k, u3.slotHolder none t k ≠ some c) → v.fmxOf c = u3.fmxOf c ∧ v.slmOf c = u3.slmOf c)
          ∧ exec (.trunkFrameGood t f) s
            = .next (allChans.foldl (fun w c => if (w.chan c).trunk = some t then w.finishWindow c else w) v).settle))
    ∧ (∀ (s : State) (t : Fin 4) (f : List Byte), s.running = true → (s.tpc t).goodFrame f = false →
      exec (.trunkFrameMalformed t f) s = exec (.trunkFrameMissing t) s)
    ∧ (∀ (s : State) (t : Fin 4), s.running = true → (s.tpc t).link = .training → (s.tpc t).badRun + 1 < 8 →
        exec (.trunkTrainingFail t) s = .next s ∧ exec (.trunkFrameMissing t) s
          = .next (State.settle { s with trunks := vset s.trunks t { s.tpc t with goodRun := 0, badRun := (s.tpc t).badRun + 1 } }))
    ∧ (∀ (s : State) (t : Fin 4), s.running = true → (s.tpc t).link = .training → (s.tpc t).badRun = 7 →
        let u := State.notify (.trunk t .down) { s with
          trunks := vset s.trunks t { s.tpc t with link := .down, echoes := [], lastAnswered := none, goodRun := 0, badRun := 0 } }
        exec (.trunkTrainingFail t) s = .next u ∧ exec (.trunkFrameMissing t) s = .next u.settle)
    ∧ (∀ (s : State) (t : Fin 4), s.running = true → (s.tpc t).link = .up → (s.tpc t).badRun + 1 < 8 →
        exec (.trunkLinkLost t) s = .next s ∧ exec (.trunkFrameMissing t) s
          = .next (State.settle { s with trunks := vset s.trunks t { s.tpc t with badRun := (s.tpc t).badRun + 1 } }))
    ∧ ∀ (s : State) (t : Fin 4), s.running = true → (s.tpc t).link = .down ∨ (s.tpc t).link = .held →
        exec (.trunkFrameMissing t) s = .next s.settle

/-- TRUNK_LINK_LOST, the 8th bad frame time in a row while UP: the link goes DOWN; no channel, list entry, hold member or holder of the trunk is
left; entries and members of other trunks stay; its queue, in-flight command, echoes and runs are cleared, a running census ends with outcome
LINK_FAULT, the lost-links count rises and LINK_LOST is set (R24, R46). -/
def Obligations.TrunkLossClearsFloor : Prop :=
  ∀ (s : State) (t : Fin 4), s.running = true → (s.tpc t).link = .up → (s.tpc t).badRun = 7 → ∃ u : State, exec (.trunkLinkLost t) s = .next u.settle
    ∧ exec (.trunkFrameMissing t) s = .next u.settle
    ∧ u.tpc t = { s.tpc t with
        link := .down, goodRun := 0, badRun := 0, lastAnswered := none, echoes := [], queue := [], inFlight := none, censusRunning := false
        censusOutcome := if (s.tpc t).censusRunning then .linkFault else (s.tpc t).censusOutcome
        lostLinks := min 255 ((s.tpc t).lostLinks + 1) }
    ∧ (∀ k, k ≠ t → u.tpc k = { s.tpc k with queue := (u.tpc k).queue })
    ∧ (∀ c x, (u.chan c).state ≠ .free → (u.chan c).seat = some x → x.trunk ≠ t)
    ∧ u.far.list = s.far.list.filter (fun e => e.seat.trunk ≠ t)
    ∧ u.far.holdSet = s.far.holdSet.filter (fun x => x.trunk ≠ t)
    ∧ u.far.holder = s.far.holder.filter (fun x => x.trunk ≠ t)
    ∧ u.far.claimed = s.far.claimed ∧ u.far.forceReturn = s.far.forceReturn
    ∧ flagsHas .linkLost u.mge.flags = true ∧ ((s.tpc t).censusRunning = true → flagsHas .censusFault u.mge.flags = true)
    ∧ u.mge.settings = s.mge.settings ∧ u.mge.batch = s.mge.batch ∧ u.stb.classes = s.stb.classes ∧ u.stb.zones = s.stb.zones
    ∧ u.startUpHold = s.startUpHold ∧ u.lastReply = s.lastReply ∧ u.hallOut = s.hallOut ∧ u.trunkOut = s.trunkOut ∧ u.pending = s.pending

/-- TRUNK_FRAME_SEND: nothing on a HELD trunk; a frame without echoes and command while not UP; while UP a frame with the echoes waiting, which
the list then loses, and the command chosen: one to be retried, else the earliest queued of the highest class, else the next probe of a
running census (R25, R28, R33, R34, R40; that an empty field is sent with all its bits 0 is the model's choice, log entry 37). -/
def Obligations.TrunkFrameSendCarriesCommand : Prop :=
  (∀ (q : List QEntry) (e : QEntry), nextQueued q = some e →
      (∀ d ∈ q, e.cmd.cls ≤ d.cmd.cls) ∧ q.find? (fun d => d.cmd.cls = e.cmd.cls) = some e)
    ∧ (∀ n l cmd x, (trunkFrame n l cmd x).length = 12 ∧ (trunkFrame n l cmd x).take 2 = [0xA5, n]
        ∧ (trunkFrame n l cmd x).getD 11 0 = crc8 (((trunkFrame n l cmd x).drop 1).take 10))
    ∧ ∀ (s : State) (t : Fin 4), s.running = true →
      let p := s.tpc t
      let sent : Option (Option (Fin 120) × Cmd) → Tpc → State := fun cmd q => { s with
        trunks := vset s.trunks t { q with nextFrame := p.nextFrame + 1, framesSent := min 4 (p.framesSent + 1), echoes := [] }
        trunkOut := vset s.trunkOut t (some (trunkFrame p.nextFrame p.echoes cmd s.fmx.mixSample)) }
      (p.link = .held → exec (.trunkFrameSend t) s = .next s.settle)
        ∧ (p.link = .down ∨ p.link = .training → exec (.trunkFrameSend t) s = .next (State.settle { s with
            trunks := vset s.trunks t { p with nextFrame := p.nextFrame + 1, framesSent := min 4 (p.framesSent + 1) }
            trunkOut := vset s.trunkOut t (some (trunkFrame p.nextFrame [] none s.fmx.mixSample)) }))
        ∧ (∀ pos cmd, p.link = .up → p.inFlight = none → nextQueued p.queue = some ⟨some pos, cmd⟩ → exec (.trunkFrameSend t) s
            = .next (sent (some (some pos, cmd)) { p with
                queue := p.queue.erase ⟨some pos, cmd⟩, inFlight := some ⟨pos, cmd, 1, p.nextFrame, .sent⟩ }).settle)
        ∧ (∀ cmd, p.link = .up → p.inFlight = none → nextQueued p.queue = some ⟨none, cmd⟩ → exec (.trunkFrameSend t) s
            = .next (sent (some (none, cmd)) { p with queue := p.queue.erase ⟨none, cmd⟩ }).settle)
        ∧ (∀ f, p.link = .up → p.inFlight = some f → f.status = .retry → exec (.trunkFrameSend t) s
            = .next (sent (some (some f.pos, f.cmd)) { p with
                inFlight := some { f with attempts := f.attempts + 1, frame := p.nextFrame, status := .sent } }).settle)
        ∧ (∀ pos : Fin 120, p.link = .up → p.inFlight = none → p.queue = [] → p.censusRunning = true → p.nextProbe = pos.val + 1 →
            exec (.trunkFrameSend t) s = .next (sent (some (some pos, .probe)) { p with
                inFlight := some ⟨pos, .probe, 1, p.nextFrame, .sent⟩, nextProbe := p.nextProbe + 1 }).settle)
        ∧ (p.link = .up → p.inFlight = none → p.queue = [] → p.censusRunning = false → exec (.trunkFrameSend t) s = .next (sent none p).settle)
        ∧ (∀ f, p.link = .up → p.inFlight = some f → f.status = .sent → (p.nextFrame - f.frame).toNat < 4 →
            exec (.trunkFrameSend t) s = .next (sent none p).settle)
        ∧ (∀ f, p.link = .up → p.inFlight = some f → f.status = .sent → 4 ≤ (p.nextFrame - f.frame).toNat → f.cmd ≠ .probe →
            f.attempts < s.mge.settings.retryLimit → exec (.trunkFrameSend t) s
              = .next (sent none { p with inFlight := some { f with status := .retry } }).settle)

/-- A seat event is taken only from a trunk that is UP; one whose position is 0 or above 120 only sets BAD_EVENT; a repeated serial is only
echoed; any other is echoed, makes its seat PRESENT, has its serial stored, and is dispatched by its kind. The echo list keeps the latest two
(R3, R26, R27, R28, R29). -/
def Obligations.SeatEventsAreDeduplicated : Prop :=
  ∀ (kind : EventKind) (t : Fin 4) (position : Fin 128) (serial : Fin 16) (arg : Byte) (s : State),
    let i := seatEventOf kind t position serial arg
    (s.running = false ∨ (s.tpc t).link ≠ .up → exec i s = .next s)
      ∧ (s.running = true → (s.tpc t).link = .up → position.val = 0 ∨ 120 < position.val →
        exec i s = .next { s with mge := { s.mge with flags := flagsSet .badEvent s.mge.flags } })
      ∧ (∀ x : Seat, x.trunk = t → x.pos.val + 1 = position.val → s.running = true → (s.tpc t).link = .up →
        let echoed := { s with trunks := vset s.trunks t { s.tpc t with
          echoes := ((s.tpc t).echoes ++ [(⟨x.pos, serial⟩ : Echo)]).drop ((s.tpc t).echoes.length - 1) } }
        let a := s.afterIntake x serial
        ((s.seatRec x).lastSerial = some serial → exec i s = .next echoed)
          ∧ ((s.seatRec x).lastSerial ≠ some serial →
            exec i s = .next (a.dispatch (some kind) arg (decide ((s.seatRec x).availability = .present)) x).settle
              ∧ a = (let b := { echoed with stb := { s.stb with
                    seats := vset s.stb.seats (seatIndex x) { s.seatRec x with availability := .present, lastSerial := some serial } } }
                  if (s.seatRec x).availability = .present then b else b.notify (.seat x .present))))

/-- PRIORITY_DOWN, PRIORITY_UP, CHAIR_NEXT, CHAIR_CLEAR, TAKE_LIST and GIVE_LIST from a seat whose class is not of kind CHAIR set BAD_EVENT and do
nothing else, though the event was accepted (R29). -/
def Obligations.ChairEventsNeedAChair : Prop :=
  ∀ (kind : EventKind) (t : Fin 4) (position : Fin 128) (serial : Fin 16) (arg : Byte) (s : State) (x : Seat),
    kind ≠ .hello → kind ≠ .micPress → kind ≠ .confirm → s.takesEvent t position serial x → s.kindOf x ≠ .chair →
    exec (seatEventOf kind t position serial arg) s = .next ((s.afterIntake x serial).setFlag .badEvent).settle

/-- HELLO stores the confirm-key capability; of a seat that was PRESENT it also ends what the seat had on the floor, by its floor state: a WAITING
entry is withdrawn; an offer ends with WITHDRAW placed and the channel freed; an OPENING channel whose OPEN is unsent is freed, and any other OPENING,
OPEN or HELD channel goes to CLOSING with cause RELEASED; a succession is dropped; an IDLE or CLOSING seat stays as it is. Then a member leaves the
hold set with HOLD LEFT and the fall of the hold level, which meets every HELD channel, as by PRIORITY_UP, and the holder loses the list with LIST_CONTROL and LIST_STATE, as by
GIVE_LIST (R5, R60, R64, R70, R89, R106, R120, R121, R122, R128; that the hold set is left before the list is the model's choice, log entry 29). -/
def Obligations.HelloRestartsUnit : Prop :=
  (∀ (t : Fin 4) (position : Fin 128) (serial : Fin 16) (arg : Byte) (s : State) (x : Seat), s.takesEvent t position serial x →
    let a := (s.afterIntake x serial).modSeat x fun r => { r with confirmKey := some (arg.getLsbD 0) }
    let hello := exec (.hello t position serial arg) s
    let leaves := fun u : State => hello = .next (State.settle ((u.priorityReleased x).listGiven x))
    ((s.seatRec x).availability ≠ .present → hello = .next a.settle)
      ∧ ((s.seatRec x).availability = .present →
        (s.floorState x = .idle ∨ s.floorState x = .closing → leaves a)
          ∧ (∀ i, s.floorState x = .waiting → s.listIndex x = some i →
            leaves (State.notify (.listRemove x .withdrawn i (s.far.list.length - 1)) { a with far := { s.far with list := s.far.list.eraseIdx i } }))
          ∧ (∀ e i c, s.entryOf x = some e → e.state = .offered → s.listIndex x = some i → s.chanOf x = some c → (s.chan c).state = .offered →
            ∃ u : State, leaves u ∧ u.chan c = Channel.reset ∧ (∀ d, d ≠ c → u.chan d = s.chan d)
              ∧ u.far = { s.far with
                  channels := u.far.channels, openSeq := s.far.openSeq.filter (fun d => d ≠ c), list := s.far.list.eraseIdx i
                  promotionDeferred := true }
              ∧ u.trunks = (a.place x .withdraw).trunks ∧ u.stb = a.stb ∧ u.slm = s.slm ∧ u.fmx = s.fmx
              ∧ a.onlyNotices [.listRemove x .withdrawn i (s.far.list.length - 1), .chClose c x .released 0] u)
          ∧ (∀ c, s.floorState x = .opening → s.chanOf x = some c → s.openUnsent x = true →
            ∃ u : State, leaves u ∧ u.chan c = Channel.reset ∧ (∀ d, d ≠ c → u.chan d = s.chan d)
              ∧ u.far = { s.far with
                  channels := u.far.channels, openSeq := s.far.openSeq.filter (fun d => d ≠ c), promotionDeferred := true }
              ∧ u.trunks = (a.place x .close).trunks ∧ u.stb = a.stb ∧ u.slm = s.slm ∧ u.fmx = s.fmx
              ∧ a.onlyNotices [.chClose c x .released 0] u)
          ∧ (∀ c, (s.floorState x = .opening ∧ s.openUnsent x = false) ∨ s.floorState x = .opened ∨ s.floorState x = .held →
            s.chanOf x = some c → ∃ u : State, leaves u
              ∧ u.chan c = { s.chan c with state := .closing, closeCause := some .released } ∧ (∀ d, d ≠ c → u.chan d = s.chan d)
              ∧ u.far = { s.far with channels := u.far.channels } ∧ u.trunks = (a.place x .close).trunks ∧ u.fmx = s.fmx
              ∧ u.slm = (if s.floorState x = .opened then vset s.slm c { s.slmOf c with progress := none, exponent := none, sum := 0 } else s.slm)
              ∧ u.stb = (if s.floorState x = .opening then a else a.modSeat x fun r =>
                  { r with speakingTotal := min 999999 (r.speakingTotal + (s.slmOf c).clock) }).stb
              ∧ a.onlyNotices [] u)
          ∧ (∀ c, s.floorState x = .succeeding → s.successorChan x = some c → leaves { a with
            far := { s.far with channels := vset s.far.channels c { s.chan c with successor := none } } })))
    ∧ ∀ (u : State) (x : Seat),
      let members := u.far.holdSet.filter fun y => y ≠ x
      let level := u.levelOfMembers members
      let left := State.notify (.hold (some x) .left level members.length) { u with far := { u.far with holdSet := members, holdLevel := level } }
      (x ∉ u.far.holdSet → u.priorityReleased x = u)
        ∧ (x ∈ u.far.holdSet → level = u.far.holdLevel → u.priorityReleased x = left)
        ∧ (x ∈ u.far.holdSet → level < u.far.holdLevel → u.priorityReleased x = left.fallen)
        ∧ (x ∈ u.far.holdSet → level < u.far.holdLevel → (∀ c, (u.chan c).state ≠ .held) →
          u.priorityReleased x = { left with far := { left.far with promotionDeferred := true } })
        ∧ (∀ (c : Fin 12) (y : Seat) (l : Fin 8), x ∈ u.far.holdSet → level < u.far.holdLevel → (∀ d, (u.chan d).state = .held ↔ d = c) →
          (u.chan c).seat = some y → (u.chan c).level = some l → level ≤ l → u.unsent y = none → u.inFlightFor y ≠ some .unmute →
          u.priorityReleased x = State.place y .unmute { left with far := { left.far with promotionDeferred := true } })
        ∧ (u.far.holder ≠ some x → u.listGiven x = u)
        ∧ (u.far.holder = some x → u.listGiven x = State.place x (.listState false) (State.notify (.listControl u.far.claimed none u.far.forceReturn)
          { u with far := { u.far with holder := none } }))

/-- MIC_PRESS of an IDLE, enabled, eligible seat, with no batch open, opens the lowest free channel with the lowest free talk slot of its trunk:
cause DIRECT for a delegate in DIRECT mode, cause CHAIR for a chair in any mode. OPEN is placed, and the audio state of the channel starts afresh
(R53, R79, R101, R102, R107, R135). -/
def Obligations.PressOpensAChannel : Prop :=
  ∀ (t : Fin 4) (position : Fin 128) (serial : Fin 16) (arg : Byte) (s : State) (x : Seat) (c : Fin 12) (k : Fin 6) (cause : OpeningCause),
    s.takesEvent t position serial x → s.floorState x = .idle → arg.getLsbD 0 = false → s.mge.batch = none → s.unsent x = none →
    s.freeChan = some c → s.freeSlot none t = some k →
    (s.kindOf x = .delegate ∧ s.mge.settings.mode = .direct ∧ cause = .direct) ∨ (s.kindOf x = .chair ∧ cause = .chair) →
    let a := s.afterIntake x serial
    a.eligible x = true →
    exec (.micPress t position serial arg) s = .next (State.settle { a with
      far := { s.far with
        channels := vset s.far.channels c
          ⟨.opening, some x, some t, some k, some (s.levelOf x), some (s.kindOf x), some cause, some false, some false, none, none⟩
        openSeq := s.far.openSeq ++ [c] }
      slm := vset s.slm c ⟨0, false, false, none, none, 0, none, true, 0⟩
      fmx := { s.fmx with chans := vset s.fmx.chans c { s.fmxOf c with latest := 0, fresh := false } }
      trunks := vset a.trunks t { a.tpc t with queue := (s.tpc t).queue ++ [⟨some x.pos, .openMic k false⟩] } })

/-- MIC_PRESS of an IDLE, enabled delegate in LIST or AUTO mode, or in DIRECT mode when it is not eligible under policy QUEUE, joins the list at the
place its discipline gives, with QUEUED placed and notice LIST_ADD; a full list of 64 refuses it, counts it and sets QUEUE_FULL. An insertion puts a
chair's entry after the chairs and before every delegate, and a delegate's after every chair, so that the chairs go on standing first (R73, R74, R75,
R76, R79, R101, R102). -/
def Obligations.PressJoinsTheList : Prop :=
  (∀ (t : Fin 4) (position : Fin 128) (serial : Fin 16) (arg : Byte) (s : State) (x : Seat),
    s.takesEvent t position serial x → s.floorState x = .idle → arg.getLsbD 0 = false → (s.seatRec x).enabled = true → s.kindOf x = .delegate →
    let a := s.afterIntake x serial
    s.mge.settings.mode ≠ .direct ∨ (s.mge.settings.policy = .queue ∧ a.eligible x = false) →
    let i := match s.mge.settings.discipline, (s.classOf x).group with
      | .arrival, _ | .grouped, .low => s.far.list.length
      | .grouped, .high => s.far.list.findIdx fun e => e.kind = .delegate ∧ e.group = .low
      | .level, _ => s.far.list.findIdx fun e => e.kind = .delegate ∧ e.level < s.levelOf x
    let e : Entry := ⟨x, .delegate, s.levelOf x, (s.classOf x).group, .seat, .waiting, none, none⟩
    (s.far.list.length < 64 → exec (.micPress t position serial arg) s
        = .next (State.settle (State.notify (.listAdd x i .seat (s.far.list.length + 1)) (State.place x .queued { a with
          far := { s.far with
            list := s.far.list.take i ++ e :: s.far.list.drop i
            promotionDeferred := if s.mge.settings.mode = .list then s.far.promotionDeferred else true } }))))
      ∧ (64 ≤ s.far.list.length → exec (.micPress t position serial arg) s
        = .next (State.settle { a.place x .refused with mge := { a.mge with
            refused := min 65535 (s.mge.refused + 1)
            flags := flagsSet .queueFull a.mge.flags } })))
    ∧ ∀ (d : Discipline) (level : Fin 8) (group : Group) (l : List Entry) (e : Entry), (∀ a ∈ l, a.kind ≠ .listener) → e.kind ≠ .listener →
    chairsFirst l →
    let i := insertionIndex d e.kind level group l
    chairsFirst (l.take i ++ e :: l.drop i) ∧ (e.kind = .chair → (∀ a ∈ l.take i, a.kind = .chair) ∧ ∀ a ∈ l.drop i, a.kind = .delegate)
      ∧ (e.kind = .delegate → ∀ a ∈ l.drop i, a.kind = .delegate)

/-- Presses and confirms that make no request: an IDLE seat that is disabled or a listener, presses with the offer mark, or confirms is sent REFUSED,
and so is a delegate that is not eligible under policy DENY, which is counted; a WAITING seat's press withdraws its entry when second press cancels is
on and otherwise does nothing; a CLOSING seat's press, and a confirm outside IDLE and OFFERED, does nothing (R79, R80, R101, R102). -/
def Obligations.PressesRefusedOrWithdrawn : Prop :=
  ∀ (t : Fin 4) (position : Fin 128) (serial : Fin 16) (arg : Byte) (s : State) (x : Seat), s.takesEvent t position serial x →
    let a := s.afterIntake x serial
    let press := exec (.micPress t position serial arg) s
    let confirm := exec (.confirm t position serial arg) s
    (s.floorState x = .idle → arg.getLsbD 0 = true ∨ (s.seatRec x).enabled = false ∨ s.kindOf x = .listener →
        press = .next (a.place x .refused).settle)
      ∧ (s.floorState x = .idle → arg.getLsbD 0 = false → (s.seatRec x).enabled = true → s.kindOf x = .delegate →
        s.mge.settings.mode = .direct → (s.tpc t).censusRunning = false → a.eligible x = false → s.mge.settings.policy = .deny →
        press = .next (State.settle { a.place x .refused with mge := { a.mge with refused := min 65535 (s.mge.refused + 1) } }))
      ∧ (s.floorState x = .idle → confirm = .next (a.place x .refused).settle)
      ∧ (s.floorState x = .waiting → s.mge.settings.secondPressCancels = false → press = .next a.settle)
      ∧ (∀ i, s.floorState x = .waiting → s.mge.settings.secondPressCancels = true → s.listIndex x = some i →
        press = .next (State.settle (State.notify (.listRemove x .withdrawn i (s.far.list.length - 1))
          { a with far := { s.far with list := s.far.list.eraseIdx i } })))
      ∧ (s.floorState x = .closing → press = .next a.settle)
      ∧ (s.floorState x ≠ .idle → s.floorState x ≠ .offered → confirm = .next a.settle)

/-- MIC_PRESS of a seat that holds a channel gives it back with cause RELEASED: an OPEN or HELD channel goes to CLOSING with CLOSE placed and its
clock added to the seat's speaking total; an OPENING one goes to CLOSING once its OPEN is sent, and is freed at once while the OPEN is unsent; the
press of a SUCCEEDING seat ends its succession. CH_CLOSE is queued where the channel is freed, and no notice at entry to CLOSING. The press of a
CLOSING seat is ignored, and so is a CONFIRM of a seat that holds a channel which is OPENING, OPEN, HELD or CLOSING (R60, R64, R66, R70, R79, R106,
R143). -/
def Obligations.PressReleasesTheChannel : Prop :=
  ∀ (t : Fin 4) (position : Fin 128) (serial : Fin 16) (arg : Byte) (s : State) (x : Seat) (c : Fin 12), s.takesEvent t position serial x →
    let a := s.afterIntake x serial
    let press := exec (.micPress t position serial arg) s
    (s.floorState x = .opened ∨ s.floorState x = .held → s.chanOf x = some c → ∃ u : State, press = .next u.settle
        ∧ u.chan c = { s.chan c with state := .closing, closeCause := some .released } ∧ (∀ d, d ≠ c → u.chan d = s.chan d)
        ∧ u.far = { s.far with channels := u.far.channels } ∧ u.fmx = s.fmx ∧ u.trunks = (a.place x .close).trunks
        ∧ u.slm = (if s.floorState x = .opened then vset s.slm c { s.slmOf c with progress := none, exponent := none, sum := 0 } else s.slm)
        ∧ u.stb = (a.modSeat x fun r => { r with speakingTotal := min 999999 (r.speakingTotal + (s.slmOf c).clock) }).stb ∧ a.onlyNotices [] u)
      ∧ (s.floorState x = .opening → s.chanOf x = some c → s.openUnsent x = false → ∃ u : State, press = .next u.settle
        ∧ u.chan c = { s.chan c with state := .closing, closeCause := some .released } ∧ (∀ d, d ≠ c → u.chan d = s.chan d)
        ∧ u.far = { s.far with channels := u.far.channels } ∧ u.fmx = s.fmx ∧ u.slm = s.slm ∧ u.stb = a.stb
        ∧ u.trunks = (a.place x .close).trunks ∧ a.onlyNotices [] u)
      ∧ (s.floorState x = .opening → s.chanOf x = some c → s.openUnsent x = true → ∃ u : State, press = .next u.settle
        ∧ u.chan c = Channel.reset ∧ (∀ d, d ≠ c → u.chan d = s.chan d)
        ∧ u.far = { s.far with
            channels := u.far.channels, openSeq := s.far.openSeq.filter (fun d => d ≠ c), promotionDeferred := true }
        ∧ u.fmx = s.fmx ∧ u.slm = s.slm ∧ u.stb = a.stb ∧ u.trunks = (a.place x .close).trunks
        ∧ a.onlyNotices [.chClose c x .released 0] u)
      ∧ (s.floorState x = .succeeding → s.successorChan x = some c → press = .next (State.settle { a with
          far := { s.far with channels := vset s.far.channels c { s.chan c with successor := none } } }))
      ∧ (s.floorState x = .closing → press = .next a.settle)
      ∧ (s.floorState x = .opening ∨ s.floorState x = .opened ∨ s.floorState x = .held ∨ s.floorState x = .closing →
        exec (.confirm t position serial arg) s = .next a.settle)

/-- MIC_PRESS of a delegate that is not eligible in DIRECT mode under policy REPLACE takes the oldest candidate channel: it goes to CLOSING with cause
REPLACED, names the delegate as successor, and CLOSE is placed for the seat leaving (R102, R104, R105). -/
def Obligations.PressReplacesOldestCandidate : Prop :=
  ∀ (t : Fin 4) (position : Fin 128) (serial : Fin 16) (arg : Byte) (s : State) (x y : Seat) (c : Fin 12), s.takesEvent t position serial x →
    s.floorState x = .idle → arg.getLsbD 0 = false → (s.seatRec x).enabled = true → s.kindOf x = .delegate → s.mge.settings.mode = .direct →
    s.mge.settings.policy = .replace → s.mge.batch = none → (s.tpc t).censusRunning = false → (s.chan c).seat = some y →
    let a := s.afterIntake x serial
    a.eligible x = false → a.candidate x = some c → ∃ u : State, exec (.micPress t position serial arg) s = .next u.settle
      ∧ u.chan c = { s.chan c with state := .closing, closeCause := some .replaced, successor := some x }
      ∧ (∀ d, d ≠ c → u.chan d = s.chan d) ∧ u.far = { s.far with channels := u.far.channels } ∧ u.fmx = s.fmx
      ∧ u.trunks = (a.place y .close).trunks
      ∧ u.stb = (a.modSeat y fun r => { r with speakingTotal := min 999999 (r.speakingTotal + (s.slmOf c).clock) }).stb ∧ a.onlyNotices [] u
      ∧ ((s.chan c).state = .opened ∨ (s.chan c).state = .held) ∧ (s.chan c).kind = some .delegate ∧ (s.classOf y).replaceable = true

/-- CONFIRM of an OFFERED seat, and its MIC_PRESS unless its unit has a confirm key and press-as-confirm is off, takes the offer: the entry leaves the
list, the channel goes to OPENING and OPEN is placed, muted when the seat is below the hold level; the other presses decline: WITHDRAW is placed and
the channel is freed. LIST_REMOVE is queued, and CH_CLOSE for a channel freed (R70, R78, R82, R85, R86, R87). -/
def Obligations.ConfirmTakesTheOffer : Prop :=
  ∀ (t : Fin 4) (position : Fin 128) (serial : Fin 16) (arg : Byte) (s : State) (x : Seat) (e : Entry) (i : Nat) (c : Fin 12)
    (k : Fin 6), s.takesEvent t position serial x → s.entryOf x = some e → s.listIndex x = some i → e.state = .offered → s.chanOf x = some c → (s.chan c).state = .offered →
    (s.chan c).slot = some k → s.unsent x ≠ some .close →
    let a := s.afterIntake x serial
    let declines := (s.seatRec x).confirmKey = some true ∧ s.mge.settings.pressAsConfirm = false
    let accepted := fun u : State => u.chan c = { s.chan c with state := .opening, mutedAtOpen := some (s.belowHold c) }
      ∧ (∀ d, d ≠ c → u.chan d = s.chan d)
      ∧ u.far = { s.far with channels := u.far.channels, list := s.far.list.eraseP (fun b => b.seat = x) }
      ∧ u.trunks = (a.place x (.openMic k (s.belowHold c))).trunks ∧ u.stb = a.stb ∧ u.slm = s.slm ∧ u.fmx = s.fmx
      ∧ a.onlyNotices [.listRemove x .opened i (s.far.list.length - 1)] u
    (∃ u, exec (.confirm t position serial arg) s = .next u.settle ∧ accepted u)
      ∧ (¬ declines → ∃ u, exec (.micPress t position serial arg) s = .next u.settle ∧ accepted u)
      ∧ (declines → ∃ u : State, exec (.micPress t position serial arg) s = .next u.settle
        ∧ u.chan c = Channel.reset ∧ (∀ d, d ≠ c → u.chan d = s.chan d)
        ∧ u.far = { s.far with
            channels := u.far.channels, openSeq := s.far.openSeq.filter (fun d => d ≠ c)
            list := s.far.list.eraseP (fun b => b.seat = x), promotionDeferred := true }
        ∧ u.trunks = (a.place x .withdraw).trunks ∧ u.stb = a.stb ∧ u.slm = s.slm ∧ u.fmx = s.fmx
        ∧ a.onlyNotices [.listRemove x .declined i (s.far.list.length - 1), .chClose c x .released 0] u)

/-- PRIORITY_DOWN of an enabled chair that is not a member puts it in the hold set, with the hold level the highest of the members', and HOLD tells
it. An IDLE chair then asks for a channel by bypass: eligible, it is given the lowest free channel and slot with cause CHAIR, not muted; otherwise the
oldest candidate goes to CLOSING with cause REPLACED and names it as successor; without a candidate, and always while a batch is open, it joins the
list after the chairs, or finds it full. When the level rises, no delegate below it is left OPEN: each goes to HELD with MUTE placed and CH_HELD, in
ascending channel number, or under priority action CLOSE to CLOSING with cause PRIORITY, CLOSE placed and its clock added, without a notice; an OPEN
channel not below it stays as it was, and so does every other, but a HELD one whose UNMUTE waits or is under way gets MUTE. A member's or a disabled
chair's press does nothing (R53, R60, R70, R74, R76, R105, R107, R108, R117, R118, R119, R123). -/
def Obligations.PriorityDownRaisesTheHold : Prop :=
  (∀ (t : Fin 4) (position : Fin 128) (serial : Fin 16) (arg : Byte) (s : State) (x : Seat), s.takesEvent t position serial x →
    s.kindOf x = .chair →
    let a := s.afterIntake x serial
    let members := seatInsert x s.far.holdSet
    let level := s.levelOfMembers members
    let joined := State.notify (.hold (some x) .joined level members.length)
      { a with far := { s.far with holdSet := members, holdLevel := level } }
    let press := exec (.priorityDown t position serial arg) s
    (x ∈ s.far.holdSet ∨ (s.seatRec x).enabled = false → press = .next a.settle)
      ∧ (x ∉ s.far.holdSet → (s.seatRec x).enabled = true →
        (s.floorState x ≠ .idle → level ≤ s.far.holdLevel → press = .next joined.settle)
          ∧ (s.floorState x ≠ .idle → s.far.holdLevel < level → ∃ u : State, press = .next u.settle ∧ joined.risen u
            ∧ u.far = { s.far with channels := u.far.channels, holdSet := members, holdLevel := level }
            ∧ (∀ c l, (u.chan c).state = .opened → (u.chan c).kind = some .delegate → (u.chan c).level = some l → level ≤ l)
            ∧ (∀ c, (s.chan c).state ≠ .opened → u.chan c = s.chan c)
            ∧ (∀ c, (u.chan c).seat = (s.chan c).seat ∧ (u.chan c).slot = (s.chan c).slot) ∧ u.fmx = s.fmx
            ∧ a.onlyNotices (.hold (some x) .joined level members.length :: allChans.filterMap fun c =>
                if s.mge.settings.priorityAction = .mute ∧ (s.chan c).state = .opened ∧ joined.belowHold c = true then
                  (s.chan c).seat.map (.chHeld c) else none) u)
          ∧ (s.floorState x = .idle → level ≤ s.far.holdLevel → press = .next (joined.chairBypass x).settle)
          ∧ (s.floorState x = .idle → s.far.holdLevel < level → press = .next (joined.chairBypass x).rise.settle
            ∧ ∃ u : State, press = .next u.settle ∧ (joined.chairBypass x).risen u
              ∧ u.far.holdSet = members ∧ u.far.holdLevel = level
              ∧ ∀ c l, (u.chan c).state = .opened → (u.chan c).kind = some .delegate → (u.chan c).level = some l → level ≤ l)))
    ∧ ∀ (s : State) (x : Seat), s.kindOf x = .chair →
      let i := s.far.list.findIdx fun e => e.kind = .delegate
      let e : Entry := ⟨x, .chair, s.levelOf x, (s.classOf x).group, .chairBypass, .waiting, none, none⟩
      (s.mge.batch ≠ none ∨ (s.eligible x = false ∧ s.candidate x = none) →
          (s.far.list.length < 64 → s.chairBypass x
              = State.notify (.listAdd x i .chairBypass (s.far.list.length + 1)) (State.place x .queued { s with
                far := { s.far with
                  list := s.far.list.take i ++ e :: s.far.list.drop i
                  promotionDeferred := if s.mge.settings.mode = .list then s.far.promotionDeferred else true } }))
            ∧ (64 ≤ s.far.list.length → s.chairBypass x = { s.place x .refused with mge := { s.mge with
                refused := min 65535 (s.mge.refused + 1)
                flags := flagsSet .queueFull s.mge.flags } }))
        ∧ (∀ c k, s.mge.batch = none → s.eligible x = true → s.unsent x ≠ some .close → s.freeChan = some c →
          s.freeSlot none x.trunk = some k → s.chairBypass x = { s.place x (.openMic k false) with
            far := { s.far with
              channels := vset s.far.channels c
                ⟨.opening, some x, some x.trunk, some k, some (s.levelOf x), some .chair, some .chair, some false, some false, none, none⟩
              openSeq := s.far.openSeq ++ [c] }
            slm := vset s.slm c ⟨0, false, false, none, none, 0, none, true, 0⟩
            fmx := { s.fmx with chans := vset s.fmx.chans c { s.fmxOf c with latest := 0, fresh := false } } })
        ∧ ∀ c y, s.mge.batch = none → s.eligible x = false → s.candidate x = some c → (s.chan c).seat = some y →
          ∃ u : State, s.closingOf c y .replaced u ∧ s.chairBypass x = { u with
            far := { u.far with channels := vset u.far.channels c { u.chan c with successor := some x } } }

/-- PRIORITY_UP of a chair that is not a member does nothing; of a member it takes the chair out of the hold set. The hold level follows the members
left; when it falls, a promotion is owed, and each HELD channel that is no longer below it gets UNMUTE, in ascending channel number, unless an UNMUTE
is unsent, or is in flight with no MUTE unsent behind it; where this drops an unsent MUTE and no UNMUTE is in flight, the channel is OPEN again at
once, with CH_RESUMED (R32, R59, R70, R109, R117, R120, R121, R123). -/
def Obligations.PriorityUpLowersTheHold : Prop :=
  ∀ (t : Fin 4) (position : Fin 128) (serial : Fin 16) (arg : Byte) (s : State) (x : Seat), s.takesEvent t position serial x →
    s.kindOf x = .chair →
    let a := s.afterIntake x serial
    let members := s.far.holdSet.filter fun y => y ≠ x
    let level := s.levelOfMembers members
    let left := State.notify (.hold (some x) .left level members.length)
      { a with far := { s.far with holdSet := members, holdLevel := level } }
    let release := exec (.priorityUp t position serial arg) s
    (x ∉ s.far.holdSet → release = .next a.settle)
      ∧ (x ∈ s.far.holdSet → level = s.far.holdLevel → release = .next left.settle)
      ∧ (x ∈ s.far.holdSet → level < s.far.holdLevel → release = .next left.fallen.settle)
      ∧ (x ∈ s.far.holdSet → level < s.far.holdLevel → (∀ c, (s.chan c).state ≠ .held) →
        release = .next (State.settle { left with far := { left.far with promotionDeferred := true } }))
      ∧ (∀ (c : Fin 12) (y : Seat) (l : Fin 8), x ∈ s.far.holdSet → level < s.far.holdLevel → (∀ d, (s.chan d).state = .held ↔ d = c) →
        (s.chan c).seat = some y → (s.chan c).level = some l → level ≤ l → s.unsent y = none → s.inFlightFor y ≠ some .unmute →
        release = .next (State.settle (State.place y .unmute { left with far := { left.far with promotionDeferred := true } })))
      ∧ (∀ (c : Fin 12) (y : Seat) (l : Fin 8), x ∈ s.far.holdSet → level < s.far.holdLevel → (∀ d, (s.chan d).state = .held ↔ d = c) →
        (s.chan c).seat = some y → (s.chan c).level = some l → level ≤ l → s.unsent y = some .mute → s.inFlightFor y ≠ some .unmute →
        (s.tpc y.trunk).link = .up → (s.seatRec y).availability = .present → ∃ u : State, release = .next u.settle
          ∧ u.chan c = { s.chan c with state := .opened, reachedOpen := some true } ∧ (∀ d, d ≠ c → u.chan d = s.chan d)
          ∧ u.far = { s.far with channels := u.far.channels, holdSet := members, holdLevel := level, promotionDeferred := true }
          ∧ u.trunks = (a.place y .unmute).trunks ∧ u.fmx = s.fmx
          ∧ a.onlyNotices [.hold (some x) .left level members.length, .chResumed c y] u)

/-- CHAIR_NEXT and CHAIR_CLEAR of a chair that is not an enabled holder only place LIST_STATE (not holding); of an enabled holder CHAIR_NEXT promotes
the first WAITING entry whose seat is eligible, if any, and CHAIR_CLEAR empties the list, freeing the channels of its offers (R89, R94, R111, R124,
R131). -/
def Obligations.ChairRecordsNeedTheHolder : Prop :=
  ∀ (t : Fin 4) (position : Fin 128) (serial : Fin 16) (arg : Byte) (s : State) (x : Seat), s.takesEvent t position serial x →
    s.kindOf x = .chair →
    let a := s.afterIntake x serial
    let next := exec (.chairNext t position serial arg) s
    let clear := exec (.chairClear t position serial arg) s
    (s.far.holder ≠ some x ∨ (s.seatRec x).enabled = false →
        next = .next (a.place x (.listState false)).settle ∧ clear = .next (a.place x (.listState false)).settle)
      ∧ (s.far.holder = some x → (s.seatRec x).enabled = true →
        ((∀ e ∈ s.far.list, a.promotable e.seat = false) → next = .next a.settle)
          ∧ (∀ before e rest, s.far.list = before ++ e :: rest → (∀ b ∈ before, a.promotable b.seat = false) → a.promotable e.seat = true →
            next = .next (a.promote e.seat).settle)
          ∧ (s.far.list = [] → clear = .next a.settle)
          ∧ ∃ u : State, clear = .next u.settle ∧ u.far.list = [] ∧ (∀ c, u.chan c = s.chan c ∨ u.chan c = Channel.reset)
            ∧ (∀ c y e, s.entryOf y = some e → e.state = .offered → s.chanOf y = some c → (s.chan c).state = .offered →
              u.chan c = Channel.reset)
            ∧ u.far.holder = some x ∧ u.far.holdSet = s.far.holdSet ∧ u.far.holdLevel = s.far.holdLevel ∧ u.far.claimed = s.far.claimed
            ∧ u.far.forceReturn = s.far.forceReturn ∧ u.fmx = s.fmx
            ∧ ((∀ e ∈ s.far.list, e.state = .waiting) → u.far = { s.far with list := [] } ∧ u.stb = a.stb ∧ u.slm = s.slm))

/-- TAKE_LIST gives an enabled chair the list when no chair holds it, the controller does not claim it and force-return is clear; the holder is told
it holds, and any other chair that it does not (R124, R127). -/
def Obligations.TakeListNeedsAFreeList : Prop :=
  ∀ (t : Fin 4) (position : Fin 128) (serial : Fin 16) (arg : Byte) (s : State) (x : Seat), s.takesEvent t position serial x →
    s.kindOf x = .chair →
    let a := s.afterIntake x serial
    let take := exec (.takeList t position serial arg) s
    ((s.seatRec x).enabled = false ∨ (s.far.holder ≠ some x ∧ (s.far.holder ≠ none ∨ s.far.claimed = true ∨ s.far.forceReturn = true)) →
        take = .next (a.place x (.listState false)).settle)
      ∧ ((s.seatRec x).enabled = true → s.far.holder = some x → take = .next (a.place x (.listState true)).settle)
      ∧ ((s.seatRec x).enabled = true → s.far.holder = none → s.far.claimed = false → s.far.forceReturn = false →
        take = .next (State.settle (State.notify (.listControl false (some x) false)
          (State.place x (.listState true) { a with far := { s.far with holder := some x } }))))

/-- GIVE_LIST of the holder clears the holder, places LIST_STATE (not holding) and queues LIST_CONTROL; the claim and force-return stay. Of another
chair it is ignored (R128). -/
def Obligations.GiveListReturnsControl : Prop :=
  ∀ (t : Fin 4) (position : Fin 128) (serial : Fin 16) (arg : Byte) (s : State) (x : Seat), s.takesEvent t position serial x →
    s.kindOf x = .chair →
    let a := s.afterIntake x serial
    (s.far.holder = some x → exec (.giveList t position serial arg) s
        = .next (State.settle (State.place x (.listState false) (State.notify (.listControl s.far.claimed none s.far.forceReturn)
          { a with far := { s.far with holder := none } }))))
      ∧ (s.far.holder ≠ some x → exec (.giveList t position serial arg) s = .next a.settle)

/-! ### Completions -/

/-- OPEN_COMPLETE of the OPEN sent to the seat of an OPENING channel. REJECTED frees the channel. DONE counts the grant and takes the channel to OPEN
with its clock at 0, or to HELD when it is below the hold level: muted already, or with MUTE placed; one opened muted that is no longer below gets
UNMUTE. CH_OPEN tells which state was entered, CH_HELD follows where it is HELD, and CH_CLOSE tells of a channel freed. At the entry to OPEN the
first comparison, with the clock at 0, warns a seat whose allowance is not 0 and at or below a nonzero warn lead: WARN is placed and notice WARN
queued (behind CH_OPEN by the model's choice, log entry 34); no allowance expires there. An answer for which no channel is OPENING only ends the
delivery; without an OPEN sent there is none (R35, R53, R55, R56, R57, R65, R70, R135, R139, R140, R150; the last is the model's choice, log entry
1). -/
def Obligations.OpenCompletes : Prop :=
  ∀ (x : Seat) (result : AckResult) (s : State),
    (s.awaiting x = none → exec (.openComplete x result) s = .next s)
      ∧ ∀ (k : Fin 6) (m : Bool), s.awaiting x = some (.openMic k m) →
        let a := s.afterDelivery x
        ((∀ c, s.chanOf x = some c → (s.chan c).state ≠ .opening) → exec (.openComplete x result) s = .next a.settle)
          ∧ ∀ c, s.chanOf x = some c → (s.chan c).state = .opening →
            let others := fun u : State => (∀ d, d ≠ c → u.chan d = s.chan d) ∧ u.far = { s.far with channels := u.far.channels } ∧ u.fmx = s.fmx
              ∧ (∀ d, d ≠ c → u.slmOf d = s.slmOf d)
            let opened : ChanState → Notice := .chOpen c x (s.chan c).slot (s.chan c).cause
            (∃ u : State, exec (.openComplete x .rejected) s = .next u.settle ∧ u.chan c = Channel.reset ∧ (∀ d, d ≠ c → u.chan d = s.chan d)
              ∧ u.far = { s.far with
                  channels := u.far.channels, openSeq := s.far.openSeq.filter (fun d => d ≠ c), promotionDeferred := true }
              ∧ u.stb = s.stb ∧ u.slm = s.slm ∧ u.fmx = s.fmx ∧ u.trunks = a.trunks ∧ a.onlyNotices [.chClose c x .rejected 0] u)
              ∧ ((s.chan c).mutedAtOpen = some false → s.belowHold c = false →
                let warns := s.allowanceOf x ≠ 0 ∧ s.mge.settings.warnLead ≠ 0 ∧ s.allowanceOf x ≤ s.mge.settings.warnLead ∧ (s.slmOf c).warned = false
                let m := { s.slmOf c with clock := 0, warned := (s.slmOf c).warned || decide warns }
                ∃ u : State, exec (.openComplete x .done) s = .next u.settle
                ∧ u.chan c = { s.chan c with state := .opened, reachedOpen := some true } ∧ others u
                ∧ u.slmOf c = (if s.mge.settings.levelMonitor then { m with
                    progress := some 0, exponent := some s.mge.settings.windowExponent, sum := 0 } else m)
                ∧ u.stb = (s.modSeat x fun r => { r with grants := min 65535 (r.grants + 1) }).stb
                ∧ u.trunks = (if warns then a.place x .warn else a).trunks
                ∧ a.onlyNotices (opened .opened :: if warns then [.warn c x 0 (s.allowanceOf x) s.mge.settings.warnLead] else []) u)
              ∧ ((s.chan c).mutedAtOpen = some false → s.belowHold c = true → ∃ u : State, exec (.openComplete x .done) s = .next u.settle
                ∧ u.chan c = { s.chan c with state := .held } ∧ others u ∧ u.slmOf c = { s.slmOf c with clock := 0 } ∧ u.stb = s.stb
                ∧ u.trunks = (a.place x .mute).trunks ∧ a.onlyNotices [opened .held, .chHeld c x] u)
              ∧ ((s.chan c).mutedAtOpen = some true → s.belowHold c = true → ∃ u : State, exec (.openComplete x .done) s = .next u.settle
                ∧ u.chan c = { s.chan c with state := .held } ∧ others u ∧ u.slmOf c = { s.slmOf c with clock := 0 } ∧ u.stb = s.stb
                ∧ u.trunks = a.trunks ∧ a.onlyNotices [opened .held, .chHeld c x] u)
              ∧ ((s.chan c).mutedAtOpen = some true → s.belowHold c = false → s.unsent x = none → ∃ u : State,
                exec (.openComplete x .done) s = .next u.settle ∧ u.chan c = { s.chan c with state := .held } ∧ others u
                ∧ u.slmOf c = { s.slmOf c with clock := 0 } ∧ u.stb = s.stb ∧ u.trunks = (a.place x .unmute).trunks
                ∧ a.onlyNotices [opened .held, .chHeld c x] u)

/-- MUTE_COMPLETE and UNMUTE_COMPLETE. REJECTED closes a HELD channel with cause REJECTED and its clock added to the seat's total; a MUTE done changes
nothing; an UNMUTE done brings the channel to OPEN, or has MUTE placed again when it is below the hold level. For a channel that is not HELD they
only end the delivery. CH_RESUMED tells of a channel brought to OPEN, and none of entry to CLOSING (R59, R60, R65, R70, R143). That they leave the
state as it is where no such command was sent is the model's choice, log entry 1. -/
def Obligations.MuteAndUnmuteComplete : Prop :=
  ∀ (x : Seat) (result : AckResult) (s : State),
    (s.awaiting x = none → exec (.muteComplete x result) s = .next s ∧ exec (.unmuteComplete x result) s = .next s)
      ∧ ∀ (cmd : Cmd) (i : Instr), s.awaiting x = some cmd →
        (cmd = .mute ∧ i = .muteComplete x result) ∨ (cmd = .unmute ∧ i = .unmuteComplete x result) →
        let a := s.afterDelivery x
        ((∀ c, s.chanOf x = some c → (s.chan c).state ≠ .held) → exec i s = .next a.settle)
          ∧ ∀ c, s.chanOf x = some c → (s.chan c).state = .held →
            (result = .rejected → ∃ u : State, exec i s = .next u.settle
              ∧ u.chan c = { s.chan c with state := .closing, closeCause := some .rejected } ∧ (∀ d, d ≠ c → u.chan d = s.chan d)
              ∧ u.far = { s.far with channels := u.far.channels } ∧ u.trunks = (a.place x .close).trunks ∧ u.slm = s.slm ∧ u.fmx = s.fmx
              ∧ u.stb = (s.modSeat x fun r => { r with speakingTotal := min 999999 (r.speakingTotal + (s.slmOf c).clock) }).stb
              ∧ a.onlyNotices [] u)
              ∧ (result = .done → cmd = .mute → exec i s = .next a.settle)
              ∧ (result = .done → cmd = .unmute → s.belowHold c = true → exec i s = .next (a.place x .mute).settle)
              ∧ (result = .done → cmd = .unmute → s.belowHold c = false → ∃ u : State, exec i s = .next u.settle
                ∧ u.chan c = { s.chan c with state := .opened, reachedOpen := some true } ∧ (∀ d, d ≠ c → u.chan d = s.chan d)
                ∧ u.far = { s.far with channels := u.far.channels } ∧ u.trunks = a.trunks ∧ u.fmx = s.fmx
                ∧ u.slm = (if s.mge.settings.levelMonitor then vset s.slm c { s.slmOf c with
                    progress := some 0, exponent := some s.mge.settings.windowExponent, sum := 0 } else s.slm)
                ∧ u.stb = (if (s.chan c).reachedOpen = some false then (s.modSeat x fun r => { r with grants := min 65535 (r.grants + 1) }).stb
                    else s.stb)
                ∧ a.onlyNotices [.chResumed c x] u)

/-- CLOSE_COMPLETE, with either result: a CLOSING channel without a successor, or with one that is no longer valid, is freed, and CH_CLOSE carries the
cause it recorded and its speaking clock; one with a valid successor is handed over in place: its entry is filled for the successor with cause
SUCCESSION, and OPEN is placed, after the same CH_CLOSE for the seat that leaves. For a channel that is not CLOSING it only ends the delivery (R61,
R62, R63, R65, R70, R100). That it leaves the state as it is where no CLOSE was sent is the model's choice, log entry 1. -/
def Obligations.CloseCompletes : Prop :=
  ∀ (x : Seat) (result : AckResult) (s : State),
    (s.awaiting x = none → exec (.closeComplete x result) s = .next s)
      ∧ (s.awaiting x = some .close →
        let a := s.afterDelivery x
        ((∀ c, s.chanOf x = some c → (s.chan c).state ≠ .closing) → exec (.closeComplete x result) s = .next a.settle)
          ∧ ∀ c, s.chanOf x = some c → (s.chan c).state = .closing →
            let gone : Notice := .chClose c x ((s.chan c).closeCause.getD .released) (s.slmOf c).clock
            exec (.closeComplete x result) s = .next (a.endClose c).settle
              ∧ ((s.chan c).successor = none ∨ (∃ y, (s.chan c).successor = some y ∧ a.successorValid c y = false) → ∃ u : State,
              exec (.closeComplete x result) s = .next u.settle ∧ u.chan c = Channel.reset ∧ (∀ d, d ≠ c → u.chan d = s.chan d)
              ∧ u.far = { s.far with
                  channels := u.far.channels, openSeq := s.far.openSeq.filter (fun d => d ≠ c), promotionDeferred := true }
              ∧ u.stb = s.stb ∧ u.slm = s.slm ∧ u.fmx = s.fmx ∧ u.trunks = a.trunks ∧ a.onlyNotices [gone] u)
              ∧ ∀ y k, (s.chan c).successor = some y → a.successorValid c y = true → a.unsent y ≠ some .close →
                (if (s.chan c).trunk = some y.trunk then (s.chan c).slot else s.freeSlot none y.trunk) = some k →
                let muted := s.kindOf y = .delegate ∧ s.levelOf y < s.far.holdLevel
                ∃ u : State, exec (.closeComplete x result) s = .next u.settle
                  ∧ u.chan c = ⟨.opening, some y, some y.trunk, some k, some (s.levelOf y), some (s.kindOf y), some .succession,
                      some (decide muted), some false, none, none⟩
                  ∧ (∀ d, d ≠ c → u.chan d = s.chan d) ∧ u.far = { s.far with channels := u.far.channels } ∧ u.stb = s.stb
                  ∧ u.slm = vset s.slm c SlmChan.reset
                  ∧ u.fmx = { s.fmx with chans := vset s.fmx.chans c { s.fmxOf c with latest := 0, fresh := false } }
                  ∧ u.trunks = (a.place y (.openMic k (decide muted))).trunks ∧ a.onlyNotices [gone] u)

/-- OFFER_COMPLETE starts the confirm deadline of an OFFERED entry when the OFFER is done, and ends the offer when it is rejected: entry removed,
channel freed, no WITHDRAW, LIST_REMOVE and CH_CLOSE queued. WITHDRAW_COMPLETE and INDICATION_COMPLETE, with either result, only end the delivery;
without such a command sent to the seat none of the three changes anything (R35, R65, R70, R83, R90; the last is the model's choice, log entry 1). -/
def Obligations.OfferAndIndicationComplete : Prop :=
  ∀ (x : Seat) (result : AckResult) (s : State),
    let a := s.afterDelivery x
    (s.awaiting x = none → exec (.offerComplete x result) s = .next s ∧ exec (.withdrawComplete x result) s = .next s
        ∧ exec (.indicationComplete x result) s = .next s)
      ∧ (s.awaiting x = some .withdraw → exec (.withdrawComplete x result) s = .next a.settle)
      ∧ (∀ cmd holding, s.awaiting x = some cmd → cmd = .queued ∨ cmd = .refused ∨ cmd = .warn ∨ cmd = .listState holding →
        exec (.indicationComplete x result) s = .next a.settle)
      ∧ (s.awaiting x = some .offer → (∀ e, s.entryOf x = some e → e.state = .waiting ∨ e.deadline ≠ none) →
        exec (.offerComplete x result) s = .next a.settle)
      ∧ ∀ e, s.awaiting x = some .offer → s.entryOf x = some e → e.state = .offered → e.deadline = none →
        (exec (.offerComplete x .done) s = .next (State.settle { a with
          far := { s.far with list := s.far.list.map fun b => if b.seat = x then { b with deadline := b.window } else b } }))
          ∧ ∀ i c, s.listIndex x = some i → s.chanOf x = some c → (s.chan c).state = .offered → ∃ u : State, exec (.offerComplete x .rejected) s = .next u.settle
            ∧ u.chan c = Channel.reset ∧ (∀ d, d ≠ c → u.chan d = s.chan d)
            ∧ u.far = { s.far with
                channels := u.far.channels, openSeq := s.far.openSeq.filter (fun d => d ≠ c)
                list := s.far.list.eraseP (fun b => b.seat = x), promotionDeferred := true }
            ∧ u.trunks = a.trunks ∧ u.stb = s.stb ∧ u.slm = s.slm ∧ u.fmx = s.fmx
            ∧ a.onlyNotices [.listRemove x .rejected i (s.far.list.length - 1), .chClose c x .rejected 0] u

/-- PROBE_ANSWERED makes the seat PRESENT, stores its confirm-key capability from the data of the answer, and counts the seat present and probed; the
probe of position 120 completes the census with CENSUS_DONE. COMMAND_ATTEMPT_FAILED: a command that has attempts left is to be retried; one that has
none fails its delivery, which makes the seat UNREACHABLE, drops its unsent command, counts the failure, sets SEAT_LOST and clears the seat from the
floor as lost; a probe makes its seat ABSENT, clears it likewise unless it was ABSENT, and is settled, the probe of position 120 completing the census
with notice CENSUS and a promotion owed. Without a command in flight neither happens. A lost seat's clearing goes by its floor state: a WAITING entry
is removed with cause LOST; an offer ends with LOST and its channel freed, no WITHDRAW; an OPENING, OPEN or HELD channel is freed with UNREACHABLE; the
close of a CLOSING one ends, freed or handed over; a succession is dropped; then a member leaves the hold set and a holder loses the list, and a fall
of the hold level is met (R3, R4, R36, R38, R40, R41, R62, R63, R78, R117, R122, R132). The model's choices: the fall is met last (log entry 15), the
last attempt makes a seat UNREACHABLE that was ABSENT too (log entry 25), and a PROBE_ANSWERED or COMMAND_ATTEMPT_FAILED with nothing to settle leaves
the state as it is (log entry 1). -/
def Obligations.ProbesAndFailedAttemptsSetAvailability : Prop :=
  (∀ (x : Seat) (result : AckResult) (data : Byte) (s : State),
    (s.awaiting x = none → exec (.probeAnswered x result data) s = .next s)
      ∧ (s.awaiting x = some .probe → ∃ u : State, exec (.probeAnswered x result data) s = .next u.settle
        ∧ u.stb = { s.stb with seats := vset s.stb.seats (seatIndex x) { s.seatRec x with
            availability := .present
            confirmKey := some (data.getLsbD 0)
            lastSerial := if (s.seatRec x).availability = .present then (s.seatRec x).lastSerial else none } }
        ∧ (∀ t, t ≠ x.trunk → u.tpc t = s.tpc t)
        ∧ (let p : Tpc := { s.tpc x.trunk with
              inFlight := none, presentCount := min 120 ((s.tpc x.trunk).presentCount + 1), probed := min 120 ((s.tpc x.trunk).probed + 1) }
          u.tpc x.trunk = if posNumber x.pos = 120 then { p with censusRunning := false, censusOutcome := .done } else p)
        ∧ u.far = (if posNumber x.pos = 120 then { s.far with promotionDeferred := true } else s.far)
        ∧ (posNumber x.pos = 120 → flagsHas .censusDone u.mge.flags = true)
        ∧ u.slm = s.slm ∧ u.fmx = s.fmx
        ∧ (if posNumber x.pos = 120 then s.setFlag .censusDone else s).onlyNotices
          ((if (s.seatRec x).availability = .present then [] else [.seat x .present]) ++ (if posNumber x.pos = 120 then
            [.census x.trunk .done (min 120 ((s.tpc x.trunk).presentCount + 1))] else [])) u))
    ∧ (∀ (t : Fin 4) (s : State), (s.openAttempt t = none → exec (.commandAttemptFailed t) s = .next s)
    ∧ ∀ f, s.openAttempt t = some f →
      let x : Seat := ⟨t, f.pos⟩
      let p := s.tpc t
      (f.cmd ≠ .probe → f.attempts < s.mge.settings.retryLimit → exec (.commandAttemptFailed t) s
          = .next (State.settle { s with trunks := vset s.trunks t { p with inFlight := some { f with status := .retry } } }))
        ∧ (f.cmd ≠ .probe → s.mge.settings.retryLimit ≤ f.attempts → s.floorState x = .idle → x ∉ s.far.holdSet → s.far.holder ≠ some x →
          exec (.commandAttemptFailed t) s = .next (State.settle
            (let u : State := { s with
              trunks := vset s.trunks t { p with
                inFlight := none, cmdFailures := min 255 (p.cmdFailures + 1)
                queue := p.queue.filter fun e => e.target ≠ some f.pos }
              mge := { s.mge with flags := flagsSet .seatLost s.mge.flags } }
            if (s.seatRec x).availability = .unreachable then u
            else State.notify (.seat x .unreachable) { u with stb := { s.stb with
              seats := vset s.stb.seats (seatIndex x) { s.seatRec x with availability := .unreachable, lastSerial := none } } })))
        ∧ (f.cmd ≠ .probe → s.mge.settings.retryLimit ≤ f.attempts → ∀ c, s.floorState x = .opened → s.chanOf x = some c →
          x ∉ s.far.holdSet → ∃ u : State, exec (.commandAttemptFailed t) s = .next u.settle ∧ u.chan c = Channel.reset ∧ (u.seatRec x).availability = .unreachable
            ∧ flagsHas .seatLost u.mge.flags = true ∧ u.far.promotionDeferred = true ∧ u.far.list = s.far.list
            ∧ u.far.openSeq = s.far.openSeq.filter (fun d => d ≠ c) ∧ (u.seatRec x).speakingTotal
              = min 999999 ((s.seatRec x).speakingTotal + (s.slmOf c).clock)
            ∧ (s.setFlag .seatLost).onlyNotices ((if (s.seatRec x).availability = .unreachable then [] else [.seat x .unreachable])
              ++ .chClose c x .unreachable (s.slmOf c).clock
                :: (if s.far.holder = some x then [.listControl s.far.claimed none s.far.forceReturn] else [])) u)
        ∧ (f.cmd = .probe → (s.seatRec x).availability = .absent → posNumber f.pos ≠ 120 → exec (.commandAttemptFailed t) s
          = .next (State.settle { s with trunks := vset s.trunks t { p with inFlight := none, probed := min 120 (p.probed + 1) } }))
        ∧ (f.cmd = .probe → (s.seatRec x).availability ≠ .absent → posNumber f.pos ≠ 120 → s.floorState x = .idle → x ∉ s.far.holdSet →
          s.far.holder ≠ some x → exec (.commandAttemptFailed t) s = .next (State.settle (State.notify (.seat x .absent) { s with
            stb := { s.stb with
              seats := vset s.stb.seats (seatIndex x) { s.seatRec x with availability := .absent, lastSerial := none } }
            trunks := vset s.trunks t { p with
              inFlight := none, probed := min 120 (p.probed + 1), queue := p.queue.filter fun e => e.target ≠ some f.pos } })))
        ∧ (let gone := fun (availability : Availability) (failures : Nat) =>
            let u : State := { s with trunks := vset s.trunks t { p with
              inFlight := none, cmdFailures := failures, queue := p.queue.filter fun e => e.target ≠ some f.pos } }
            if (s.seatRec x).availability = availability then u
            else State.notify (.seat x availability) { u with stb := { s.stb with
              seats := vset s.stb.seats (seatIndex x) { s.seatRec x with availability := availability, lastSerial := none } } }
          let settled := fun u : State =>
            let q := { u.tpc t with probed := min 120 ((u.tpc t).probed + 1) }
            if posNumber f.pos = 120 then State.notify (.census t .done q.presentCount) { u with
              trunks := vset u.trunks t { q with censusRunning := false, censusOutcome := .done }
              mge := { u.mge with flags := flagsSet .censusDone u.mge.flags }
              far := { u.far with promotionDeferred := true } }
            else { u with trunks := vset u.trunks t q }
          (f.cmd ≠ .probe → s.mge.settings.retryLimit ≤ f.attempts → exec (.commandAttemptFailed t) s
              = .next (State.settle (State.loseSeat x (State.setFlag .seatLost (gone .unreachable (min 255 (p.cmdFailures + 1)))))))
            ∧ (f.cmd = .probe → (s.seatRec x).availability ≠ .absent → exec (.commandAttemptFailed t) s
              = .next (State.settle (settled (State.loseSeat x (gone .absent p.cmdFailures)))))
            ∧ (f.cmd = .probe → (s.seatRec x).availability = .absent → exec (.commandAttemptFailed t) s
              = .next (State.settle (settled { s with trunks := vset s.trunks t { p with inFlight := none } })))))
    ∧ ∀ (s : State) (x : Seat),
      let cleared := fun u : State => State.levelMet s.far.holdLevel ((u.memberLeft x).holderLeft x) (s.loseSeat x)
      (s.floorState x = .idle → cleared s)
        ∧ (∀ i, s.floorState x = .waiting → s.listIndex x = some i → cleared
          (State.notify (.listRemove x .lost i (s.far.list.length - 1)) { s with far := { s.far with list := s.far.list.eraseIdx i } }))
        ∧ (∀ e i c, s.entryOf x = some e → e.state = .offered → s.listIndex x = some i → s.chanOf x = some c → (s.chan c).state = .offered →
          ∃ u, cleared u ∧ s.freed c (s.far.list.eraseIdx i) s.trunks
            [.listRemove x .lost i (s.far.list.length - 1), .chClose c x .unreachable 0] u)
        ∧ (∀ c, s.chanOf x = some c →
          (s.floorState x = .opening → ∃ u, cleared u ∧ s.freed c s.far.list s.trunks [.chClose c x .unreachable 0] u)
            ∧ (s.floorState x = .opened → ∃ u, cleared u
              ∧ ((s.withClock c x).withoutWindow c).freed c s.far.list s.trunks [.chClose c x .unreachable (s.slmOf c).clock] u)
            ∧ (s.floorState x = .held → ∃ u, cleared u
              ∧ (s.withClock c x).freed c s.far.list s.trunks [.chClose c x .unreachable (s.slmOf c).clock] u)
            ∧ (s.floorState x = .closing → ∃ u, cleared u ∧ s.closeEndOf c x u))
        ∧ (∀ c, s.floorState x = .succeeding → s.successorChan x = some c →
          cleared { s with far := { s.far with channels := vset s.far.channels c { s.chan c with successor := none } } })

/-! ### Records -/

/-- The reading records change nothing: each is answered with what its rule lists, read from the state as it stands. A seat code beyond 504 is
answered BAD_FIELD and one that is 0 or invalid NO_SEAT by every record that names one seat; a class above 7, a zone above 8, a trunk above 3, a first
index above 63 and a count of 0 are answered BAD_FIELD (R1, R13, R17, R21, R48, R71, R95, R162, R189; layouts as in log entry 12;
that the status record counts every place of the reply queue is the model's choice, log entry 38). -/
def Obligations.ReadingRecordsChangeNothing : Prop :=
  (∀ (x : Seat) (s : State), s.takes (.readSeat (BitVec.ofNat 16 (seatCode x))) → exec (.readSeat (BitVec.ofNat 16 (seatCode x))) s
      = .next (s.afterRecord s 0x02 .ok (s.seatFields x)))
    ∧ (∀ (n : Fin 8) (s : State), s.takes (.readClass (BitVec.ofNat 8 n)) →
        let r := vget s.stb.classes n
        exec (.readClass (BitVec.ofNat 8 n)) s = .next (s.afterRecord s 0x04 .ok
          (u8 r.kind.code ++ u8 r.level ++ u8 r.group.code ++ u16 r.allowance ++ u8 r.action.code ++ s8 r.offset ++ flagByte r.silenceRelease
            ++ flagByte r.replaceable ++ u16 (s.stb.seats.toList.countP fun a => a.cls = n))))
    ∧ (∀ (n : Fin 8) (s : State), s.takes (.readZone (BitVec.ofNat 8 n)) →
        let z := vget s.stb.zones n
        exec (.readZone (BitVec.ofNat 8 n)) s = .next (s.afterRecord s 0x06 .ok
          (flagByte z.enabled ++ u16 z.base ++ u16 z.limit ++ u8 z.cap ++ s.zoneCounts (some n))))
    ∧ (∀ s : State, s.takes (.readZone 8) → exec (.readZone 8) s = .next (s.afterRecord s 0x06 .ok (s.zoneCounts none)))
    ∧ (∀ (t : Fin 4) (s : State), s.takes (.readTrunk (BitVec.ofNat 8 t)) →
        exec (.readTrunk (BitVec.ofNat 8 t)) s = .next (s.afterRecord s 0x14 .ok (s.trunkFields t)))
    ∧ (∀ s : State, s.takes .readChannels → exec .readChannels s = .next (s.afterRecord s 0x22 .ok (s.far.openSeq.flatMap (fun c => u8 c)
        ++ u8 (s.inUse none) ++ u8 (s.delegatesInUse none) ++ u8 s.far.holdLevel ++ allChans.flatMap s.chanFields)))
    ∧ (∀ (first count : Byte) (s : State), s.takes (.readList first count) → first.toNat ≤ 63 → count ≠ 0 →
        exec (.readList first count) s = .next (s.afterRecord s 0x26 (if 8 < count.toNat then .clamped else .ok)
          (u8 s.far.list.length ++ u8 (s.far.list.countP fun e => e.kind = .chair) ++ u8 (s.far.list.countP fun e => e.state = .offered)
            ++ u8 s.mge.settings.discipline.code ++ u8 first.toNat
            ++ s.sliceFields first.toNat ((s.far.list.drop first.toNat).take (min 8 count.toNat)))))
    ∧ (∀ s : State, s.takes .readMix → exec .readMix s = .next (s.afterRecord s 0x38 .ok (flagByte s.mge.settings.nomAttenuation
        ++ u8 s.fmx.nomCount ++ u8 s.fmx.attenuation ++ s16 s.fmx.mixSample ++ flagByte s.fmx.clipped ++ allChans.flatMap s.mixChanFields)))
    ∧ (∀ s : State, s.takes .readStatus → exec .readStatus s = .next (s.afterRecord s 0x54 .ok s.statusFields))
    ∧ ∀ (code : BitVec 16) (a b : Byte) (i : Instr) (kind : Byte) (s : State), s.takes i →
        ((i, kind) = (.readSeat code, 0x02) ∨ (i, kind) = (.close code, 0x20) ∨ (i, kind) = (.insertRequest code a, 0x23)
            ∨ (i, kind) = (.cancelRequest code, 0x24) ∨ (i, kind) = (.grant code, 0x28) →
          (504 < code.toNat → exec i s = .next (s.afterRecord s kind .badField []))
            ∧ (code.toNat ≤ 504 → code.toNat % 128 = 0 ∨ 120 < code.toNat % 128 → exec i s = .next (s.afterRecord s kind .noSeat [])))
          ∧ ((i, kind) = (.readClass a, 0x04) ∧ 7 < a.toNat ∨ (i, kind) = (.readZone a, 0x06) ∧ 8 < a.toNat
            ∨ (i, kind) = (.readTrunk a, 0x14) ∧ 3 < a.toNat ∨ (i, kind) = (.readList a b, 0x26) ∧ (63 < a.toNat ∨ b = 0) →
            exec i s = .next (s.afterRecord s kind .badField []))

/-- READ_IDENT is answered OK with the part code, the revision and the capacities, and READ_SETTINGS with the 20 floor settings as they stand; neither
changes anything, whether the sitting is open and whoever holds the list (R182, R190, R193; field widths that chapter 11 does not spell out are log
entry 12's, DEDUCED). -/
def Obligations.IdentAndSettingsAreRead : Prop :=
  (∀ s : State, s.takes .readIdent → exec .readIdent s
      = .next (s.afterRecord s 0x58 .ok (u16 5120 ++ [1] ++ [12] ++ [4] ++ [120] ++ [64] ++ [32] ++ [8])))
    ∧ ∀ s : State, s.takes .readSettings →
      let v := s.mge.settings
      exec .readSettings s = .next (s.afterRecord s 0x51 .ok
        (u8 v.mode.code ++ u8 v.floorLimit ++ u8 v.chairReserve ++ u8 v.policy.code ++ u8 v.discipline.code ++ flagByte v.confirm
          ++ u16 v.confirmWindow ++ flagByte v.pressAsConfirm ++ flagByte v.secondPressCancels ++ u8 v.priorityAction.code
          ++ flagByte v.nomAttenuation ++ flagByte v.levelMonitor ++ u8 v.windowExponent ++ u16 v.gateThreshold ++ u16 v.releaseThreshold
          ++ u8 v.silenceCountSetting ++ u16 v.warnLead ++ u8 v.retryLimit ++ u8 v.silenceLimit ++ flagByte v.autoCensus))

/-- The seating records, past their checks, write exactly the fields they name: LOAD_SEAT the seats of its range, SET_CLASS its class, SET_ZONE its
window; a LOAD_SEAT that names no field answers 0 seats (log entry 13). Their refusals change nothing: BAD_FIELD, NO_SEAT, LOCKED while the sitting is
open, FULL at the chair limit. A seat that LOAD_SEAT disables or moves to a LISTENER class, and every seat of a class that SET_CLASS makes LISTENER, is
cleared from the floor as barred, in ascending seat-code order: a WAITING entry is removed with cause DISABLED; an offer ends with DISABLED, WITHDRAW
placed and its channel freed; an OPENING channel whose OPEN is unsent is freed, and any other OPENING, OPEN or HELD one goes to CLOSING with cause
DISABLED; a CLOSING one stays; a succession is dropped; then a member leaves the hold set and a holder loses the list. A chair that becomes a delegate
only leaves the hold set and list control. A changed level of a member is told by HOLD, and one rise or fall of the hold level is met (R4, R9, R10,
R11, R12, R16, R18, R19, R117, R119, R122, R183). The model's choices: a refusal carries no record, where R11 and R16 have the reply carry it (log
entry 31), the rise or fall is met last (log entry 15), and the clearing reads the new records (log entry 16). -/
def Obligations.SeatingRecordsWriteWhatTheyName : Prop :=
  (∀ (p : LoadSeatParams) (s : State), s.takes (.loadSeat p) →
      let stb := p.stbAfter s.stb
      (p.fieldsOk = false → exec (.loadSeat p) s = .next (s.afterRecord s 0x01 .badField []))
        ∧ (p.fieldsOk = true → p.seatsOk = false → exec (.loadSeat p) s = .next (s.afterRecord s 0x01 .noSeat []))
        ∧ (p.fieldsOk = true → p.seatsOk = true → p.empty = true → exec (.loadSeat p) s = .next (s.afterRecord s 0x01 .ok [0, 0]))
        ∧ (p.fieldsOk = true → p.seatsOk = true → p.empty = false →
          (s.mge.sittingOpen = true → (∃ x ∈ p.range, (p.apply (s.seatRec x)).cls ≠ (s.seatRec x).cls) →
              exec (.loadSeat p) s = .next (s.afterRecord s 0x01 .locked []))
            ∧ (s.mge.sittingOpen = false → 8 < stb.chairCount → s.stb.chairCount < stb.chairCount →
              exec (.loadSeat p) s = .next (s.afterRecord s 0x01 .full []))
            ∧ (s.mge.sittingOpen = false ∨ (∀ x ∈ p.range, (p.apply (s.seatRec x)).cls = (s.seatRec x).cls) →
              stb.chairCount ≤ 8 ∨ stb.chairCount ≤ s.stb.chairCount → ∃ u : State,
              exec (.loadSeat p) s = .next (s.afterRecord u.settle 0x01 (if p.clamped then .clamped else .ok) (u16 p.range.length))
              ∧ (∀ x, let r := if p.first.toNat ≤ seatCode x ∧ seatCode x ≤ p.last.toNat then p.apply (s.seatRec x) else s.seatRec x
                (u.seatRec x).enabled = r.enabled ∧ (u.seatRec x).cls = r.cls ∧ (u.seatRec x).trim = r.trim
                  ∧ (u.seatRec x).override = r.override ∧ (u.seatRec x).availability = r.availability
                  ∧ (u.seatRec x).confirmKey = r.confirmKey ∧ (u.seatRec x).lastSerial = r.lastSerial)
              ∧ u.stb.classes = s.stb.classes ∧ u.stb.zones = s.stb.zones ∧ u.mge.settings = s.mge.settings
              ∧ (∀ x ∈ p.range, (s.seatRec x).enabled = true → (p.apply (s.seatRec x)).enabled = false →
                x ∉ u.far.holdSet ∧ u.far.holder ≠ some x)
              ∧ (let kind := fun r : SeatRec => (vget s.stb.classes r.cls).kind
                let cleared := p.range.foldl (fun a x =>
                  let r := s.seatRec x
                  let n := p.apply r
                  if (r.enabled = true ∧ n.enabled = false) ∨ (n.cls ≠ r.cls ∧ kind n = .listener) then a.clearBarred x
                  else if n.cls ≠ r.cls ∧ kind r = .chair ∧ kind n = .delegate then (a.memberLeft x).holderLeft x
                  else a) { s with stb := stb }
                State.levelMet s.far.holdLevel cleared.levelRead u))))
    ∧ (∀ (p : SetClassParams) (s : State), s.takes (.setClass p) →
      (7 < p.cls.toNat ∨ p.codesOk = false → exec (.setClass p) s = .next (s.afterRecord s 0x03 .badField []))
        ∧ ∀ n : Fin 8, p.cls.toNat = n.val → p.codesOk = true →
          let old := vget s.stb.classes n
          let new := p.apply old
          let stb : Stb := { s.stb with classes := vset s.stb.classes n new }
          (s.mge.sittingOpen = true → new.kind ≠ old.kind ∨ new.level ≠ old.level ∨ new.group ≠ old.group →
              exec (.setClass p) s = .next (s.afterRecord s 0x03 .locked []))
            ∧ (s.mge.sittingOpen = false → 8 < stb.chairCount → s.stb.chairCount < stb.chairCount →
              exec (.setClass p) s = .next (s.afterRecord s 0x03 .full []))
            ∧ (s.mge.sittingOpen = false ∨ (new.kind = old.kind ∧ new.level = old.level ∧ new.group = old.group) →
              stb.chairCount ≤ 8 ∨ stb.chairCount ≤ s.stb.chairCount → ∃ u : State,
              exec (.setClass p) s = .next (s.afterRecord u.settle 0x03 (if p.clamped then .clamped else .ok) new.fields)
              ∧ u.stb.classes = stb.classes ∧ u.stb.zones = s.stb.zones ∧ u.mge.settings = s.mge.settings
              ∧ (∀ x, (u.seatRec x).enabled = (s.seatRec x).enabled ∧ (u.seatRec x).cls = (s.seatRec x).cls)
              ∧ (∀ x, (s.seatRec x).cls = n → old.kind = .chair → new.kind ≠ .chair → x ∉ u.far.holdSet ∧ u.far.holder ≠ some x)
              ∧ (let seats := allSeats.filter fun x => (s.seatRec x).cls = n
                let cleared := seats.foldl (fun a x =>
                  if old.kind ≠ .listener ∧ new.kind = .listener then a.clearBarred x
                  else if old.kind = .chair ∧ new.kind = .delegate then (a.memberLeft x).holderLeft x
                  else a) { s with stb := stb }
                State.levelMet s.far.holdLevel cleared.levelRead u)))
    ∧ (allSeats.Pairwise fun x y => seatCode x < seatCode y)
    ∧ (∀ p : LoadSeatParams, p.range = allSeats.filter fun x => p.first.toNat ≤ seatCode x ∧ seatCode x ≤ p.last.toNat)
    ∧ (∀ (s : State) (x : Seat),
      let cleared := fun u : State => s.clearBarred x = (u.memberLeft x).holderLeft x
      (s.floorState x = .idle ∨ s.floorState x = .closing → cleared s)
        ∧ (∀ i, s.floorState x = .waiting → s.listIndex x = some i → cleared
          (State.notify (.listRemove x .disabled i (s.far.list.length - 1)) { s with far := { s.far with list := s.far.list.eraseIdx i } }))
        ∧ (∀ e i c, s.entryOf x = some e → e.state = .offered → s.listIndex x = some i → s.chanOf x = some c → (s.chan c).state = .offered →
          ∃ u, cleared u ∧ s.freed c (s.far.list.eraseIdx i) (s.place x .withdraw).trunks
            [.listRemove x .disabled i (s.far.list.length - 1), .chClose c x .disabled 0] u)
        ∧ (∀ c, s.chanOf x = some c →
          (s.floorState x = .opening → s.openUnsent x = true → ∃ u, cleared u
              ∧ s.freed c s.far.list (s.place x .close).trunks [.chClose c x .disabled 0] u)
            ∧ ((s.floorState x = .opening ∧ s.openUnsent x = false) ∨ s.floorState x = .opened ∨ s.floorState x = .held →
              ∃ u, cleared u ∧ s.closingOf c x .disabled u))
        ∧ (∀ c, s.floorState x = .succeeding → s.successorChan x = some c →
          cleared { s with far := { s.far with channels := vset s.far.channels c { s.chan c with successor := none } } }))
    ∧ ∀ (p : SetZoneParams) (s : State), s.takes (.setZone p) →
      (7 < p.zone.toNat ∨ p.fieldsOk = false → exec (.setZone p) s = .next (s.afterRecord s 0x05 .badField []))
        ∧ ∀ n : Fin 8, p.zone.toNat = n.val → p.fieldsOk = true →
          let z := vget s.stb.zones n
          let new : ZoneRec := ⟨(p.enabled.map fun b => b == 1).getD z.enabled, (p.base.map BitVec.toNat).getD z.base,
            (p.limit.map BitVec.toNat).getD z.limit, (p.cap.map fun b => min 12 b.toNat).getD z.cap⟩
          (s.mge.sittingOpen = true → p.empty = false → exec (.setZone p) s = .next (s.afterRecord s 0x05 .locked []))
            ∧ (s.mge.sittingOpen = false ∨ p.empty = true → exec (.setZone p) s = .next (s.afterRecord
              { s with stb := { s.stb with zones := vset s.stb.zones n new } } 0x05
              (if p.cap.any fun b => 12 < b.toNat then .clamped else .ok) (flagByte new.enabled ++ u16 new.base ++ u16 new.limit ++ u8 new.cap)))

/-- The trunk records: a trunk number above 3 is answered BAD_FIELD. CENSUS starts a census on an UP trunk where none runs and nothing of the floor
belongs to the trunk; ABORT_CENSUS ends one with outcome ABORTED and drops a probe in flight; HOLD_TRUNK tears the trunk down to HELD, and
RELEASE_TRUNK takes it from HELD to DOWN (R24, R39, R42, R44, R45, R46). -/
def Obligations.TrunkRecordsActByLinkState : Prop :=
  (∀ (b : Byte) (i : Instr) (kind : Byte) (s : State), s.takes i → 3 < b.toNat →
      (i, kind) = (.census b, 0x10) ∨ (i, kind) = (.abortCensus b, 0x11) ∨ (i, kind) = (.holdTrunk b, 0x12)
        ∨ (i, kind) = (.releaseTrunk b, 0x13) → exec i s = .next (s.afterRecord s kind .badField []))
    ∧ ∀ (t : Fin 4) (b : Byte) (s : State), b.toNat = t.val →
      let p := s.tpc t
      let busy := (∃ c x, (s.chan c).state ≠ .free ∧ (s.chan c).seat = some x ∧ x.trunk = t)
        ∨ ∃ e ∈ s.far.list, e.state = .offered ∧ e.seat.trunk = t
      (s.takes (.census b) →
        (p.censusRunning = true → exec (.census b) s = .next (s.afterRecord s 0x10 .busy []))
          ∧ (p.censusRunning = false → p.link ≠ .up ∨ busy → exec (.census b) s = .next (s.afterRecord s 0x10 .state []))
          ∧ (p.censusRunning = false → p.link = .up → ¬ busy → exec (.census b) s = .next (s.afterRecord
            { s with trunks := vset s.trunks t { p with censusRunning := true, probed := 0, presentCount := 0, nextProbe := 1 } } 0x10 .ok [])))
        ∧ (s.takes (.abortCensus b) →
          (p.censusRunning = false → exec (.abortCensus b) s = .next (s.afterRecord s 0x11 .state []))
            ∧ (p.censusRunning = true → exec (.abortCensus b) s = .next (s.afterRecord
              (State.settle (State.notify (.census t .aborted p.presentCount) { s with
                trunks := vset s.trunks t { p with
                  censusRunning := false, censusOutcome := .aborted, inFlight := p.inFlight.filter fun f => f.cmd ≠ .probe }
                far := { s.far with promotionDeferred := true } })) 0x11 .ok [])))
        ∧ (s.takes (.holdTrunk b) →
          (p.link = .held → exec (.holdTrunk b) s = .next (s.afterRecord s 0x12 .ok []))
            ∧ (p.link ≠ .held → ∃ u : State, exec (.holdTrunk b) s = .next (s.afterRecord u.settle 0x12 .ok [])
              ∧ u.tpc t = { p with
                  link := .held, goodRun := 0, badRun := 0, lastAnswered := none, echoes := [], queue := [], inFlight := none
                  censusRunning := false, censusOutcome := if p.censusRunning then .linkFault else p.censusOutcome }
              ∧ (∀ k, k ≠ t → u.tpc k = { s.tpc k with queue := (u.tpc k).queue })
              ∧ (∀ c x, (u.chan c).state ≠ .free → (u.chan c).seat = some x → x.trunk ≠ t)
              ∧ u.far.list = s.far.list.filter (fun e => e.seat.trunk ≠ t)
              ∧ u.far.holdSet = s.far.holdSet.filter (fun x => x.trunk ≠ t)
              ∧ u.far.holder = s.far.holder.filter (fun x => x.trunk ≠ t)
              ∧ u.far.claimed = s.far.claimed ∧ u.far.forceReturn = s.far.forceReturn ∧ u.mge.settings = s.mge.settings
              ∧ u.stb.classes = s.stb.classes ∧ u.stb.zones = s.stb.zones))
        ∧ (s.takes (.releaseTrunk b) →
          (p.link ≠ .held → exec (.releaseTrunk b) s = .next (s.afterRecord s 0x13 .state []))
            ∧ (p.link = .held → exec (.releaseTrunk b) s = .next (s.afterRecord (State.notify (.trunk t .down) { s with
              trunks := vset s.trunks t { p with link := .down, echoes := [], lastAnswered := none, goodRun := 0, badRun := 0 } }) 0x13 .ok [])))

/-- CLOSE acts by the seat's floor state: an IDLE or WAITING seat is answered STATE; an offer ends with cause CANCELLED, WITHDRAW placed and the
channel freed; an OPENING channel whose OPEN is unsent is freed, and any other OPENING, OPEN or HELD channel goes to CLOSING with cause CONTROLLER; a
CLOSING channel stays; a succession ends. CLOSE_ALL closes every channel in use and answers their number: offers end, OPEN, HELD and OPENING channels
close, CLOSING ones lose their successor; the entry of an OFFERED seat leaves the list, and every other, WAITING, stays in its order (R60, R64, R67,
R68, R70, R89, R106). -/
def Obligations.CloseRecordsCloseChannels : Prop :=
  (∀ (x : Seat) (s : State), s.takes (.close (BitVec.ofNat 16 (seatCode x))) →
      let close := exec (.close (BitVec.ofNat 16 (seatCode x))) s
      let closed := fun (c : Fin 12) (u : State) =>
        close = .next (s.afterRecord u.settle 0x20 .ok [BitVec.ofNat 8 c, BitVec.ofNat 8 (u.settle.floorState x).code])
      (s.floorState x = .idle ∨ s.floorState x = .waiting → close = .next (s.afterRecord s 0x20 .state []))
        ∧ (∀ c : Fin 12, s.floorState x = .closing → s.chanOf x = some c → closed c s)
        ∧ (∀ c : Fin 12, (s.floorState x = .opening ∧ s.openUnsent x = false) ∨ s.floorState x = .opened ∨ s.floorState x = .held →
          s.chanOf x = some c → ∃ u : State, closed c u
          ∧ u.chan c = { s.chan c with state := .closing, closeCause := some .controller } ∧ (∀ d, d ≠ c → u.chan d = s.chan d)
          ∧ u.far = { s.far with channels := u.far.channels } ∧ u.fmx = s.fmx ∧ u.trunks = (s.place x .close).trunks
          ∧ u.slm = (if s.floorState x = .opened then vset s.slm c { s.slmOf c with progress := none, exponent := none, sum := 0 } else s.slm)
          ∧ u.stb = (if s.floorState x = .opening then s else s.modSeat x fun r =>
              { r with speakingTotal := min 999999 (r.speakingTotal + (s.slmOf c).clock) }).stb
          ∧ s.onlyNotices [] u)
        ∧ (∀ c : Fin 12, s.floorState x = .opening → s.chanOf x = some c → s.openUnsent x = true → ∃ u : State, closed c u
          ∧ u.chan c = Channel.reset ∧ (∀ d, d ≠ c → u.chan d = s.chan d)
          ∧ u.far = { s.far with
              channels := u.far.channels, openSeq := s.far.openSeq.filter (fun d => d ≠ c), promotionDeferred := true }
          ∧ u.trunks = (s.place x .close).trunks ∧ u.stb = s.stb ∧ u.slm = s.slm ∧ u.fmx = s.fmx
          ∧ s.onlyNotices [.chClose c x .controller 0] u)
        ∧ (∀ (e : Entry) (i : Nat) (c : Fin 12), s.entryOf x = some e → e.state = .offered → s.listIndex x = some i → s.chanOf x = some c →
          (s.chan c).state = .offered → ∃ u : State, closed c u
          ∧ u.chan c = Channel.reset ∧ (∀ d, d ≠ c → u.chan d = s.chan d)
          ∧ u.far = { s.far with
              channels := u.far.channels, openSeq := s.far.openSeq.filter (fun d => d ≠ c), list := s.far.list.eraseIdx i
              promotionDeferred := true }
          ∧ u.trunks = (s.place x .withdraw).trunks ∧ u.stb = s.stb ∧ u.slm = s.slm ∧ u.fmx = s.fmx
          ∧ s.onlyNotices [.listRemove x .cancelled i (s.far.list.length - 1), .chClose c x .controller 0] u)
        ∧ (∀ c : Fin 12, s.floorState x = .succeeding → s.successorChan x = some c →
          closed c { s with far := { s.far with channels := vset s.far.channels c { s.chan c with successor := none } } }))
    ∧ ∀ s : State, s.takes .closeAll → ∃ u : State,
      exec .closeAll s = .next (s.afterRecord u.settle 0x21 .ok [BitVec.ofNat 8 (allChans.countP fun c => (s.chan c).state ≠ .free)])
        ∧ (∀ c, ((s.chan c).state = .opened ∨ (s.chan c).state = .held ∨ (s.chan c).state = .opening →
              (u.chan c).state = .closing ∨ (u.chan c).state = .free)
            ∧ ((s.chan c).state = .closing → (u.chan c).successor = none)
            ∧ (∀ x, (s.chan c).state = .offered → (s.chan c).seat = some x → s.chanOf x = some c → (u.chan c).state = .free)
            ∧ ((s.chan c).state = .free → u.chan c = s.chan c))
        ∧ (let stays := fun e : Entry => decide (∀ c, (s.chan c).state = .offered → (s.chan c).seat ≠ some e.seat)
          u.far.list.filter stays = s.far.list.filter stays)
        ∧ (∀ c x, (s.chan c).state = .offered → (s.chan c).seat = some x →
          u.far.list.countP (fun e => e.seat = x) ≤ s.far.list.countP (fun e => e.seat = x) - 1)
        ∧ ((∀ c, (s.chan c).state ≠ .offered) → u.far.list = s.far.list)
        ∧ u.far.holdSet = s.far.holdSet ∧ u.far.holder = s.far.holder ∧ u.mge.settings = s.mge.settings
        ∧ u.stb.classes = s.stb.classes ∧ u.stb.zones = s.stb.zones ∧ u.fmx = s.fmx

/-- The list records: INSERT_REQUEST puts an IDLE, PRESENT, enabled seat of an UP trunk at the index named, held within the block of its kind;
CANCEL_REQUEST takes a WAITING entry off with REFUSED placed, or ends an offer; CLEAR_LIST empties the list. All three are answered NOT_OWNER while a
chair holds the list, and their refusals change nothing but QUEUE_FULL of a full list (R70, R74, R76, R78, R89, R92, R93, R94, R126). That a refusal
of INSERT_REQUEST carries no index is the model's choice, log entry 31. -/
def Obligations.ListRecordsEditTheList : Prop :=
  ∀ (x : Seat) (index : Byte) (s : State),
    let code := BitVec.ofNat 16 (seatCode x)
    let mayWait := (s.seatRec x).availability = .present ∧ (s.seatRec x).enabled = true ∧ s.kindOf x ≠ .listener ∧ (s.tpc x.trunk).link = .up
    let chairs := s.far.list.countP fun e => e.kind = .chair
    (s.takes (.insertRequest code index) →
        (s.far.holder ≠ none → exec (.insertRequest code index) s = .next (s.afterRecord s 0x23 .notOwner []))
          ∧ (s.far.holder = none → s.floorState x ≠ .idle ∨ ¬ mayWait → exec (.insertRequest code index) s = .next (s.afterRecord s 0x23 .state []))
          ∧ (s.far.holder = none → s.floorState x = .idle → mayWait → 64 ≤ s.far.list.length → exec (.insertRequest code index) s
            = .next (s.afterRecord { s with mge := { s.mge with flags := flagsSet .queueFull s.mge.flags } } 0x23 .full []))
          ∧ (s.far.holder = none → s.floorState x = .idle → mayWait → s.far.list.length < 64 →
            let used := if s.kindOf x = .chair then min index.toNat chairs else max chairs (min index.toNat s.far.list.length)
            let e : Entry := ⟨x, s.kindOf x, s.levelOf x, (s.classOf x).group, .controller, .waiting, none, none⟩
            exec (.insertRequest code index) s = .next (s.afterRecord
              (State.settle (State.notify (.listAdd x used .controller (s.far.list.length + 1)) (State.place x .queued { s with far := { s.far with
                list := s.far.list.take used ++ e :: s.far.list.drop used
                promotionDeferred := if s.mge.settings.mode = .list then s.far.promotionDeferred else true } })))
              0x23 (if used = index.toNat then .ok else .clamped) [BitVec.ofNat 8 used])))
      ∧ (s.takes (.cancelRequest code) →
        (s.far.holder ≠ none → exec (.cancelRequest code) s = .next (s.afterRecord s 0x24 .notOwner []))
          ∧ (s.far.holder = none → s.entryOf x = none → exec (.cancelRequest code) s = .next (s.afterRecord s 0x24 .state []))
          ∧ (∀ e i, s.far.holder = none → s.entryOf x = some e → s.listIndex x = some i →
            (e.state = .waiting → exec (.cancelRequest code) s = .next (s.afterRecord
                (State.settle (State.place x .refused (State.notify (.listRemove x .cancelled i (s.far.list.length - 1))
                  { s with far := { s.far with list := s.far.list.eraseIdx i } }))) 0x24 .ok [BitVec.ofNat 8 i]))
              ∧ (∀ c, e.state = .offered → s.chanOf x = some c → (s.chan c).state = .offered → ∃ u : State,
                exec (.cancelRequest code) s = .next (s.afterRecord u.settle 0x24 .ok [BitVec.ofNat 8 i])
                ∧ u.chan c = Channel.reset ∧ (∀ d, d ≠ c → u.chan d = s.chan d)
                ∧ u.far = { s.far with
                    channels := u.far.channels, openSeq := s.far.openSeq.filter (fun d => d ≠ c), list := s.far.list.eraseIdx i
                    promotionDeferred := true }
                ∧ u.trunks = (s.place x .withdraw).trunks ∧ u.stb = s.stb ∧ u.slm = s.slm ∧ u.fmx = s.fmx
                ∧ s.onlyNotices [.listRemove x .cancelled i (s.far.list.length - 1), .chClose c x .controller 0] u)))
      ∧ (s.takes .clearList →
        (s.far.holder ≠ none → exec .clearList s = .next (s.afterRecord s 0x25 .notOwner []))
          ∧ (s.far.holder = none → ∃ u : State, exec .clearList s = .next (s.afterRecord u.settle 0x25 .ok [BitVec.ofNat 8 s.far.list.length])
            ∧ u.far.list = [] ∧ (∀ c, u.chan c = s.chan c ∨ u.chan c = Channel.reset) ∧ u.far.holdSet = s.far.holdSet
            ∧ ((∀ e ∈ s.far.list, e.state = .waiting) → u.far = { s.far with list := [] } ∧ u.stb = s.stb ∧ u.slm = s.slm ∧ u.fmx = s.fmx)))

/-- NEXT promotes the first WAITING entry whose seat is eligible, by the confirm setting, and is answered NONE when there is none. GRANT gives the
floor at once, without testing the hold level, to a seat that is IDLE or WAITING, whose entry leaves the list, or CLOSING with its CLOSE unsent and
nothing in flight, whose OPEN then takes the place of that CLOSE, which ends the close of its old channel; it is answered STATE for any other seat or
for one that fails the conditions of trunk and seat, and FULL without room. Both are answered NOT_OWNER while a chair holds the list. The code of
NEXT's outcome is left open (R53, R62, R64, R70, R78, R99, R110, R111, R112, R113, R126; log entry 11). -/
def Obligations.NextAndGrantGiveTheFloor : Prop :=
  (∀ s : State, s.takes .next →
      (s.far.holder ≠ none → exec .next s = .next (s.afterRecord s 0x27 .notOwner []))
        ∧ (s.far.holder = none → (∀ e ∈ s.far.list, s.promotable e.seat = false) → exec .next s = .next (s.afterRecord s 0x27 .none []))
        ∧ (∀ before e rest, s.far.holder = none → s.far.list = before ++ e :: rest → (∀ b ∈ before, s.promotable b.seat = false) →
          s.promotable e.seat = true →
          exec .next s = .next (s.afterRecord (s.promote e.seat).settle 0x27 .ok
            (u16 (seatCode e.seat) ++ optU8 (((s.promote e.seat).chanOf e.seat).map Fin.val)
              ++ optU8 ((((s.promote e.seat).chanOf e.seat).bind fun c => ((s.promote e.seat).chan c).slot).map Fin.val)
              ++ [Config.nextOutcomeCode s.mge.settings.confirm])))
        ∧ (∀ x c k i, s.mge.settings.confirm = false → s.freeChan = some c → s.freeSlot none x.trunk = some k → s.unsent x ≠ some .close →
          s.listIndex x = some i → s.promotable x = true →
          let u := s.promote x
          u.chan c = ⟨.opening, some x, some x.trunk, some k, some (s.levelOf x), some (s.kindOf x), some .promoted, some false, some false,
              none, none⟩
            ∧ (∀ d, d ≠ c → u.chan d = s.chan d) ∧ u.far.list = s.far.list.eraseIdx i
            ∧ u.far.openSeq = s.far.openSeq ++ [c] ∧ u.trunks = (s.place x (.openMic k false)).trunks ∧ u.stb = s.stb
            ∧ s.onlyNotices [.listRemove x .opened i (s.far.list.length - 1)] u))
    ∧ ∀ (x : Seat) (s : State),
      let code := BitVec.ofNat 16 (seatCode x)
      let grant := exec (.grant code) s
      let mayOpen := s.floorState x = .idle ∨ s.floorState x = .waiting
        ∨ (s.floorState x = .closing ∧ s.unsent x = some .close ∧ s.inFlightFor x = none)
      s.takes (.grant code) →
      (s.far.holder ≠ none → grant = .next (s.afterRecord s 0x28 .notOwner []))
        ∧ (s.far.holder = none → ¬ mayOpen → grant = .next (s.afterRecord s 0x28 .state []))
        ∧ (s.far.holder = none → mayOpen → s.seatConditions x = false → grant = .next (s.afterRecord s 0x28 .state []))
        ∧ (s.far.holder = none → mayOpen → s.seatConditions x = true → s.roomConditions none x = false →
          grant = .next (s.afterRecord s 0x28 .full []))
        ∧ ∀ c k, s.far.holder = none → s.seatConditions x = true → s.roomConditions none x = true →
          s.freeChan = some c → s.freeSlot none x.trunk = some k →
          let muted := decide (s.kindOf x = .delegate ∧ s.levelOf x < s.far.holdLevel)
          let opened : State := { s with
            far := { s.far with
              channels := vset s.far.channels c
                ⟨.opening, some x, some x.trunk, some k, some (s.levelOf x), some (s.kindOf x), some .grant, some muted, some false, none, none⟩
              openSeq := s.far.openSeq ++ [c] }
            slm := vset s.slm c SlmChan.reset
            fmx := { s.fmx with chans := vset s.fmx.chans c { s.fmxOf c with latest := 0, fresh := false } }
            trunks := (s.place x (.openMic k muted)).trunks }
          let granted := fun u : State => grant = .next (s.afterRecord u.settle 0x28 .ok [BitVec.ofNat 8 c, BitVec.ofNat 8 k])
          (s.floorState x = .idle → s.unsent x = none → opened.trunks = vset s.trunks x.trunk { s.tpc x.trunk with
              queue := (s.tpc x.trunk).queue ++ [⟨some x.pos, .openMic k muted⟩] } ∧ granted opened)
            ∧ (s.floorState x = .idle → s.unsent x ≠ some .close → granted opened)
            ∧ (∀ i, s.floorState x = .waiting → s.listIndex x = some i → s.unsent x ≠ some .close → ∃ u : State, granted u
              ∧ u.far = { opened.far with list := s.far.list.eraseIdx i } ∧ u.slm = opened.slm ∧ u.fmx = opened.fmx
              ∧ u.trunks = opened.trunks ∧ u.stb = s.stb ∧ s.onlyNotices [.listRemove x .opened i (s.far.list.length - 1)] u)
            ∧ ∀ d, s.floorState x = .closing → s.unsent x = some .close → s.inFlightFor x = none → s.chanOf x = some d →
              granted (opened.endClose d) ∧ opened.unsent x = some (.openMic k muted)
              ∧ ((s.chan d).successor = none ∨ (∃ y, (s.chan d).successor = some y ∧ opened.successorValid d y = false) →
                let u := opened.endClose d
                u.chan d = Channel.reset ∧ (∀ b, b ≠ d → u.chan b = opened.chan b)
                  ∧ u.far = { opened.far with
                      channels := u.far.channels, openSeq := (s.far.openSeq ++ [c]).filter (fun b => b ≠ d), promotionDeferred := true }
                  ∧ u.slm = opened.slm ∧ u.fmx = opened.fmx ∧ u.trunks = opened.trunks ∧ u.stb = s.stb
                  ∧ s.onlyNotices [.chClose d x ((s.chan d).closeCause.getD .released) (s.slmOf d).clock] u)

/-- CLAIM_LIST sets the claim unless a chair holds the list, YIELD_LIST clears it, and FORCE_LIST sets or clears force-return; setting it also takes
the list from its holder, who is told. A change queues one LIST_CONTROL, and each reply carries the list-control record after the request (R125, R126,
R129, R130; that a refusal carries no record is the model's choice, log entry 31). -/
def Obligations.ListControlRecordsChangeTheClaim : Prop :=
  ∀ s : State,
    let reply := fun f : Far => flagByte f.claimed ++ seatField f.holder ++ flagByte f.forceReturn
    let changed := fun f : Far => State.notify (.listControl f.claimed f.holder f.forceReturn) { s with far := f }
    (s.takes .claimList →
        (s.far.holder ≠ none → exec .claimList s = .next (s.afterRecord s 0x30 .notOwner []))
          ∧ (s.far.holder = none → s.far.claimed = true → exec .claimList s = .next (s.afterRecord s 0x30 .ok (reply s.far)))
          ∧ (s.far.holder = none → s.far.claimed = false →
            let f := { s.far with claimed := true }
            exec .claimList s = .next (s.afterRecord (changed f) 0x30 .ok (reply f))))
      ∧ (s.takes .yieldList →
        (s.far.claimed = false → exec .yieldList s = .next (s.afterRecord s 0x31 .ok (reply s.far)))
          ∧ (s.far.claimed = true →
            let f := { s.far with claimed := false }
            exec .yieldList s = .next (s.afterRecord (changed f) 0x31 .ok (reply f))))
      ∧ (∀ b : Byte, s.takes (.forceList b) →
        (1 < b.toNat → exec (.forceList b) s = .next (s.afterRecord s 0x32 .badField []))
          ∧ (b = 0 → s.far.forceReturn = false → exec (.forceList b) s = .next (s.afterRecord s 0x32 .ok (reply s.far)))
          ∧ (b = 0 → s.far.forceReturn = true →
            let f := { s.far with forceReturn := false }
            exec (.forceList b) s = .next (s.afterRecord (changed f) 0x32 .ok (reply f)))
          ∧ (b = 1 → s.far.holder = none → s.far.forceReturn = true → exec (.forceList b) s = .next (s.afterRecord s 0x32 .ok (reply s.far)))
          ∧ (b = 1 → s.far.holder = none → s.far.forceReturn = false →
            let f := { s.far with forceReturn := true }
            exec (.forceList b) s = .next (s.afterRecord (changed f) 0x32 .ok (reply f)))
          ∧ (∀ x, b = 1 → s.far.holder = some x →
            let f := { s.far with forceReturn := true, holder := none }
            exec (.forceList b) s = .next (s.afterRecord (State.place x (.listState false) (changed f)) 0x32 .ok (reply f))))

/-- BATCH opens a scope of at most 7 records, and is answered NESTED inside one; a record counted in an open scope lowers it, and the scope that comes
to 0 or to the end of its packet closes with one promotion; CLEAR_STATUS clears the flags it names and the counters that go with them; a record of an
unlisted kind is answered UNKNOWN (R109, R170, R172, R187). That CLEAR_STATUS answers the flags left as two bytes, most significant first, with bits 15
and 14 clear, is the model's deduction, log entry 12; that UNKNOWN_RECORD with a listed kind leaves the state as it is is its choice, log entry 33. -/
def Obligations.BatchesCountAndFlagsClear : Prop :=
  (∀ (n : Byte) (s : State), s.takes (.batch n) →
      (s.mge.batch ≠ none → exec (.batch n) s = .next (s.afterRecord s 0x40 .nested []))
        ∧ (s.mge.batch = none → n = 0 → exec (.batch n) s = .next (s.afterRecord s 0x40 .badField []))
        ∧ (s.mge.batch = none → n ≠ 0 → exec (.batch n) s = .next (s.afterRecord { s with mge := { s.mge with batch := some (min 7 n.toNat) } }
          0x40 (if 7 < n.toNat then .clamped else .ok) [])))
    ∧ (∀ (n : Nat) (s : State), s.mge.batch = some n →
      (2 ≤ n → s.countBatch true false = { s with mge := { s.mge with batch := some (n - 1) } })
        ∧ (n ≤ 1 → s.countBatch true false = State.settle { s with mge := { s.mge with batch := none } })
        ∧ s.countBatch true true = State.settle { s with mge := { s.mge with batch := none } })
    ∧ (∀ (mask : BitVec 16) (s : State), s.takes (.clearStatus mask) →
      let flags : BitVec 14 := s.mge.flags &&& ~~~(mask.setWidth 14)
      exec (.clearStatus mask) s = .next (s.afterRecord { s with
        mge := { s.mge with flags := flags, noticesLost := if mask[7] then 0 else s.mge.noticesLost }
        trunks := s.trunks.map fun p => { p with
          lostLinks := if mask[3] then 0 else p.lostLinks
          cmdFailures := if mask[2] then 0 else p.cmdFailures } } 0x55 .ok (u16 flags.toNat)))
    ∧ ∀ (kind : Byte) (s : State), s.takes (.unknownRecord kind) →
      (recordLength kind = none → exec (.unknownRecord kind) s = .next (s.afterRecord s kind .unknown []))
        ∧ (recordLength kind ≠ none → exec (.unknownRecord kind) s = .next s)

/-- SET_NOTICES replaces the notice mask by its 14 enables, in code order, and answers the mask; a field that is neither 0 nor 1 is answered BAD_FIELD
and the mask is unchanged. SET_REPORT does the same with the report mask (R174, R188). The model's choices: the reply carries the mask as 14 one-byte
enables (log entry 12), and a BAD_FIELD reply carries none (log entry 31). -/
def Obligations.MasksTakeTheirEnables : Prop :=
  ∀ (enables : Vector Byte 14) (mask : BitVec 14) (s : State), (∀ i : Fin 14, mask.getLsbD i = (enables[i] == 1)) →
    let bad := ∃ i : Fin 14, enables[i] ≠ 0 ∧ enables[i] ≠ 1
    (s.takes (.setNotices enables) →
        (bad → exec (.setNotices enables) s = .next (s.afterRecord s 0x41 .badField []))
          ∧ (¬ bad → exec (.setNotices enables) s
            = .next (s.afterRecord { s with hli := { s.hli with noticeMask := mask } } 0x41 .ok enables.toList)))
      ∧ (s.takes (.setReport enables) →
        (bad → exec (.setReport enables) s = .next (s.afterRecord s 0x56 .badField []))
          ∧ (¬ bad → exec (.setReport enables) s
            = .next (s.afterRecord { s with mge := { s.mge with reportMask := mask } } 0x56 .ok enables.toList)))

/-- SET_FLOOR with an undefined code changes nothing and is answered BAD_FIELD. Otherwise the settings take the values named, held to their ranges,
with the chair reserve below the floor limit; the level monitor that goes off ends every window with its gate active, and one that goes on starts a
window on every OPEN channel; a change of mode or floor limit or a lower reserve is a promotion trigger (R149, R180, R181; that the monitor that goes
off acts on FREE channels too is the model's choice, log entry 35). -/
def Obligations.SetFloorReplacesSettings : Prop :=
  ∀ (p : SetFloorParams) (s : State), s.takes (.setFloor p) →
    let old := s.mge.settings
    let new := p.apply old
    let trigger := new.mode ≠ old.mode ∨ new.floorLimit ≠ old.floorLimit ∨ new.chairReserve < old.chairReserve
    let u : State := { s with
      mge := { s.mge with settings := new }
      far := { s.far with promotionDeferred := s.far.promotionDeferred || decide trigger }
      slm := if new.levelMonitor = old.levelMonitor then s.slm else Vector.ofFn fun c =>
        if new.levelMonitor then
          if (s.chan c).state = .opened then { s.slmOf c with progress := some 0, exponent := some new.windowExponent, sum := 0 } else s.slmOf c
        else { s.slmOf c with progress := none, exponent := none, sum := 0, gateActive := true, silenceCount := 0 } }
    (p.codesOk = false → exec (.setFloor p) s = .next (s.afterRecord s 0x50 .badField []))
      ∧ (p.codesOk = true → exec (.setFloor p) s
          = .next (s.afterRecord u.settle 0x50 (if p.clamped old then .clamped else .ok) new.fields))
      ∧ (new.floorLimit = (p.floorLimit.map fun b => max 1 (min 12 b.toNat)).getD old.floorLimit
        ∧ new.chairReserve = min ((p.chairReserve.map fun b => min 4 b.toNat).getD old.chairReserve) (new.floorLimit - 1)
        ∧ new.confirmWindow = (p.confirmWindow.map fun w => max 1 (min 600 w.toNat)).getD old.confirmWindow
        ∧ new.windowExponent = (p.windowExponent.map fun b => max 8 (min 12 b.toNat)).getD old.windowExponent
        ∧ new.retryLimit = (p.retryLimit.map fun b => max 1 (min 15 b.toNat)).getD old.retryLimit
        ∧ new.warnLead = (p.warnLead.map fun w => min 300 w.toNat).getD old.warnLead)

/-- OPEN_SITTING zeroes the grants and speaking totals of all seats and the refused and lapsed counts and opens the sitting; CLOSE_SITTING closes
every channel, ending its offers, empties the list, closes the sitting and answers both counts. Each is answered STATE when the sitting is already so
(R184, R185; the second count is log entry 28's). -/
def Obligations.SittingOpensAndCloses : Prop :=
  (∀ s : State, s.takes .openSitting →
      (s.mge.sittingOpen = true → exec .openSitting s = .next (s.afterRecord s 0x52 .state []))
        ∧ (s.mge.sittingOpen = false → exec .openSitting s = .next (s.afterRecord { s with
          stb := { s.stb with seats := s.stb.seats.map fun r => { r with grants := 0, speakingTotal := 0 } }
          mge := { s.mge with refused := 0, lapsed := 0, sittingOpen := true } } 0x52 .ok [])))
    ∧ ∀ s : State, s.takes .closeSitting →
      (s.mge.sittingOpen = false → exec .closeSitting s = .next (s.afterRecord s 0x53 .state []))
        ∧ (s.mge.sittingOpen = true → ∃ u : State,
          exec .closeSitting s = .next (s.afterRecord u.settle 0x53 .ok
            [BitVec.ofNat 8 (allChans.countP fun c => (s.chan c).state ≠ .free), BitVec.ofNat 8 s.far.list.length])
          ∧ u.mge.sittingOpen = false ∧ u.far.list = []
          ∧ (∀ c, ((s.chan c).state = .opened ∨ (s.chan c).state = .held ∨ (s.chan c).state = .opening →
                (u.chan c).state = .closing ∨ (u.chan c).state = .free)
              ∧ ((s.chan c).state = .closing → (u.chan c).successor = none)
              ∧ (∀ x, (s.chan c).state = .offered → (s.chan c).seat = some x → s.chanOf x = some c → (u.chan c).state = .free)
              ∧ ((s.chan c).state = .free → u.chan c = s.chan c))
          ∧ u.far.holdSet = s.far.holdSet ∧ u.far.holder = s.far.holder ∧ u.far.claimed = s.far.claimed ∧ u.mge.settings = s.mge.settings
          ∧ u.stb.classes = s.stb.classes ∧ u.stb.zones = s.stb.zones ∧ u.fmx = s.fmx)

/-! ### Whole-machine statements -/

/-- At power-on reset every invariant holds: legal settings, queues within their capacities, the open sequence and the talk slots exact, no chair
seat. -/
def Obligations.ResetMeetsInvariants : Prop :=
  State.reset.mge.settings.legal ∧ State.reset.withinCapacities ∧ State.reset.openSeqExact ∧ State.reset.slotsExclusive
    ∧ State.reset.stb.chairCount = 0

/-- Every step keeps the settings in their ranges, the queues, lists and phases within their capacities, and the chair seats at 8 or fewer (R9, R28,
R73, R136, R169, R172, R173, R180). -/
def Obligations.StepKeepsRangesAndCapacities : Prop :=
  ∀ s t : State, s.mge.settings.legal → s.withinCapacities → s.stb.chairCount ≤ 8 → step s = .next t →
    t.mge.settings.legal ∧ t.withinCapacities ∧ t.stb.chairCount ≤ 8

/-- Every step keeps the floor table's shape: the open sequence lists exactly the channels that are not FREE, each once, and every one of them holds
one talk slot of its seat's trunk that no other holds (R52, R54). -/
def Obligations.StepKeepsFloorTableExact : Prop :=
  ∀ s t : State, s.openSeqExact → s.slotsExclusive → step s = .next t → t.openSeqExact ∧ t.slotsExclusive

/-- While the sitting is open no command but the three hardware resets changes a seat's class, a zone window, or a class's kind, level or group
(R183). -/
def Obligations.SittingLocksTheSeating : Prop :=
  ∀ (i : Instr) (s t : State), s.mge.sittingOpen = true → i ≠ .powerOnReset → i ≠ .brownoutReset → i ≠ .pinReset → exec i s = .next t →
    (∀ x, (t.seatRec x).cls = (s.seatRec x).cls) ∧ t.stb.zones = s.stb.zones
      ∧ ∀ n, (vget t.stb.classes n).kind = (vget s.stb.classes n).kind ∧ (vget t.stb.classes n).level = (vget s.stb.classes n).level
        ∧ (vget t.stb.classes n).group = (vget s.stb.classes n).group

/-- Every well-formed record command, with every parameter its layout can carry, is read back from the bytes it is laid out in, which have the fixed
length of its kind (R170, R193, R197). -/
def Obligations.RecordsReadBackAsWritten : Prop :=
  ∀ (i : Instr) (bytes : List Byte), i.wellFormed = true → encodeRecord i = some bytes →
    decodeRecord bytes = .command i ∧ (bytes.getD 1 0).toNat = bytes.length
      ∧ ∀ j other, j.wellFormed = true → encodeRecord j = some other → other = bytes → j = i
end

