-- ==== Sys2Proof/Laws/State.lean ====
section
/-! SUPPORT. One lemma per field per update of the state, and the laws of total table access. -/

namespace Sys2Proof

/-- The entry just replaced. -/
@[simp] theorem vget_vset_self {α : Type} {n : Nat} (v : Vector α n) (i : Fin n) (x : α) : vget (vset v i x) i = x := by
  simp [vget, vset]

/-- Another entry. -/
@[simp] theorem vget_vset_other {α : Type} {n : Nat} (v : Vector α n) (i j : Fin n) (x : α) (h : i ≠ j) :
    vget (vset v i x) j = vget v j := by
  have : i.val ≠ j.val := fun e => h (Fin.ext e)
  simp [vget, vset, this]

/-- Any entry. -/
theorem vget_vset {α : Type} {n : Nat} (v : Vector α n) (i j : Fin n) (x : α) : vget (vset v i x) j = if i = j then x else vget v j := by
  by_cases h : i = j
  · subst h; simp
  · simp [h]

/-- Putting back what was read. -/
@[simp] theorem vset_vget {α : Type} {n : Nat} (v : Vector α n) (i : Fin n) : vset v i (vget v i) = v := by
  simp [vget, vset]

/-- A later replacement wins. -/
@[simp] theorem vset_vset {α : Type} {n : Nat} (v : Vector α n) (i : Fin n) (x y : α) : vset (vset v i x) i y = vset v i y := by
  apply Vector.ext
  intro k hk
  by_cases h : i.val = k <;> simp [vset, h]

/-- A mapped table. -/
@[simp] theorem vget_map {α β : Type} {n : Nat} (v : Vector α n) (f : α → β) (i : Fin n) : vget (v.map f) i = f (vget v i) := by
  simp [vget]

/-- A table of equal entries. -/
@[simp] theorem vget_replicate {α : Type} {n : Nat} (x : α) (i : Fin n) : vget (Vector.replicate n x) i = x := by
  simp [vget]

/-- A table given by a function. -/
@[simp] theorem vget_ofFn {α : Type} {n : Nat} (f : Fin n → α) (i : Fin n) : vget (Vector.ofFn f) i = f i := by
  simp [vget]

/-- Two tables with equal entries are equal. -/
theorem vget_ext {α : Type} {n : Nat} {v w : Vector α n} (h : ∀ i, vget v i = vget w i) : v = w := by
  apply Vector.ext
  intro k hk
  exact h ⟨k, hk⟩

namespace Machine

/-! ### modFar -/

@[simp] theorem State.modFar_startUpHold (s : State) (f : Far → Far) : (s.modFar f).startUpHold = s.startUpHold := rfl
@[simp] theorem State.modFar_hli (s : State) (f : Far → Far) : (s.modFar f).hli = s.hli := rfl
@[simp] theorem State.modFar_mge (s : State) (f : Far → Far) : (s.modFar f).mge = s.mge := rfl
@[simp] theorem State.modFar_stb (s : State) (f : Far → Far) : (s.modFar f).stb = s.stb := rfl
@[simp] theorem State.modFar_trunks (s : State) (f : Far → Far) : (s.modFar f).trunks = s.trunks := rfl
@[simp] theorem State.modFar_far (s : State) (f : Far → Far) : (s.modFar f).far = f s.far := rfl
@[simp] theorem State.modFar_slm (s : State) (f : Far → Far) : (s.modFar f).slm = s.slm := rfl
@[simp] theorem State.modFar_fmx (s : State) (f : Far → Far) : (s.modFar f).fmx = s.fmx := rfl
@[simp] theorem State.modFar_lastReply (s : State) (f : Far → Far) : (s.modFar f).lastReply = s.lastReply := rfl
@[simp] theorem State.modFar_hallOut (s : State) (f : Far → Far) : (s.modFar f).hallOut = s.hallOut := rfl
@[simp] theorem State.modFar_trunkOut (s : State) (f : Far → Far) : (s.modFar f).trunkOut = s.trunkOut := rfl
@[simp] theorem State.modFar_pending (s : State) (f : Far → Far) : (s.modFar f).pending = s.pending := rfl

/-! ### modMge -/

@[simp] theorem State.modMge_startUpHold (s : State) (f : Mge → Mge) : (s.modMge f).startUpHold = s.startUpHold := rfl
@[simp] theorem State.modMge_hli (s : State) (f : Mge → Mge) : (s.modMge f).hli = s.hli := rfl
@[simp] theorem State.modMge_mge (s : State) (f : Mge → Mge) : (s.modMge f).mge = f s.mge := rfl
@[simp] theorem State.modMge_stb (s : State) (f : Mge → Mge) : (s.modMge f).stb = s.stb := rfl
@[simp] theorem State.modMge_trunks (s : State) (f : Mge → Mge) : (s.modMge f).trunks = s.trunks := rfl
@[simp] theorem State.modMge_far (s : State) (f : Mge → Mge) : (s.modMge f).far = s.far := rfl
@[simp] theorem State.modMge_slm (s : State) (f : Mge → Mge) : (s.modMge f).slm = s.slm := rfl
@[simp] theorem State.modMge_fmx (s : State) (f : Mge → Mge) : (s.modMge f).fmx = s.fmx := rfl
@[simp] theorem State.modMge_lastReply (s : State) (f : Mge → Mge) : (s.modMge f).lastReply = s.lastReply := rfl
@[simp] theorem State.modMge_hallOut (s : State) (f : Mge → Mge) : (s.modMge f).hallOut = s.hallOut := rfl
@[simp] theorem State.modMge_trunkOut (s : State) (f : Mge → Mge) : (s.modMge f).trunkOut = s.trunkOut := rfl
@[simp] theorem State.modMge_pending (s : State) (f : Mge → Mge) : (s.modMge f).pending = s.pending := rfl

/-! ### modHli -/

@[simp] theorem State.modHli_startUpHold (s : State) (f : Hli → Hli) : (s.modHli f).startUpHold = s.startUpHold := rfl
@[simp] theorem State.modHli_hli (s : State) (f : Hli → Hli) : (s.modHli f).hli = f s.hli := rfl
@[simp] theorem State.modHli_mge (s : State) (f : Hli → Hli) : (s.modHli f).mge = s.mge := rfl
@[simp] theorem State.modHli_stb (s : State) (f : Hli → Hli) : (s.modHli f).stb = s.stb := rfl
@[simp] theorem State.modHli_trunks (s : State) (f : Hli → Hli) : (s.modHli f).trunks = s.trunks := rfl
@[simp] theorem State.modHli_far (s : State) (f : Hli → Hli) : (s.modHli f).far = s.far := rfl
@[simp] theorem State.modHli_slm (s : State) (f : Hli → Hli) : (s.modHli f).slm = s.slm := rfl
@[simp] theorem State.modHli_fmx (s : State) (f : Hli → Hli) : (s.modHli f).fmx = s.fmx := rfl
@[simp] theorem State.modHli_lastReply (s : State) (f : Hli → Hli) : (s.modHli f).lastReply = s.lastReply := rfl
@[simp] theorem State.modHli_hallOut (s : State) (f : Hli → Hli) : (s.modHli f).hallOut = s.hallOut := rfl
@[simp] theorem State.modHli_trunkOut (s : State) (f : Hli → Hli) : (s.modHli f).trunkOut = s.trunkOut := rfl
@[simp] theorem State.modHli_pending (s : State) (f : Hli → Hli) : (s.modHli f).pending = s.pending := rfl

/-! ### modSeat -/

@[simp] theorem State.modSeat_startUpHold (s : State) (x : Seat) (f : SeatRec → SeatRec) : (s.modSeat x f).startUpHold = s.startUpHold := rfl
@[simp] theorem State.modSeat_hli (s : State) (x : Seat) (f : SeatRec → SeatRec) : (s.modSeat x f).hli = s.hli := rfl
@[simp] theorem State.modSeat_mge (s : State) (x : Seat) (f : SeatRec → SeatRec) : (s.modSeat x f).mge = s.mge := rfl
@[simp] theorem State.modSeat_trunks (s : State) (x : Seat) (f : SeatRec → SeatRec) : (s.modSeat x f).trunks = s.trunks := rfl
@[simp] theorem State.modSeat_far (s : State) (x : Seat) (f : SeatRec → SeatRec) : (s.modSeat x f).far = s.far := rfl
@[simp] theorem State.modSeat_slm (s : State) (x : Seat) (f : SeatRec → SeatRec) : (s.modSeat x f).slm = s.slm := rfl
@[simp] theorem State.modSeat_fmx (s : State) (x : Seat) (f : SeatRec → SeatRec) : (s.modSeat x f).fmx = s.fmx := rfl
@[simp] theorem State.modSeat_lastReply (s : State) (x : Seat) (f : SeatRec → SeatRec) : (s.modSeat x f).lastReply = s.lastReply := rfl
@[simp] theorem State.modSeat_hallOut (s : State) (x : Seat) (f : SeatRec → SeatRec) : (s.modSeat x f).hallOut = s.hallOut := rfl
@[simp] theorem State.modSeat_trunkOut (s : State) (x : Seat) (f : SeatRec → SeatRec) : (s.modSeat x f).trunkOut = s.trunkOut := rfl
@[simp] theorem State.modSeat_pending (s : State) (x : Seat) (f : SeatRec → SeatRec) : (s.modSeat x f).pending = s.pending := rfl

/-! ### modTpc -/

@[simp] theorem State.modTpc_startUpHold (s : State) (t : Fin 4) (f : Tpc → Tpc) : (s.modTpc t f).startUpHold = s.startUpHold := rfl
@[simp] theorem State.modTpc_hli (s : State) (t : Fin 4) (f : Tpc → Tpc) : (s.modTpc t f).hli = s.hli := rfl
@[simp] theorem State.modTpc_mge (s : State) (t : Fin 4) (f : Tpc → Tpc) : (s.modTpc t f).mge = s.mge := rfl
@[simp] theorem State.modTpc_stb (s : State) (t : Fin 4) (f : Tpc → Tpc) : (s.modTpc t f).stb = s.stb := rfl
@[simp] theorem State.modTpc_far (s : State) (t : Fin 4) (f : Tpc → Tpc) : (s.modTpc t f).far = s.far := rfl
@[simp] theorem State.modTpc_slm (s : State) (t : Fin 4) (f : Tpc → Tpc) : (s.modTpc t f).slm = s.slm := rfl
@[simp] theorem State.modTpc_fmx (s : State) (t : Fin 4) (f : Tpc → Tpc) : (s.modTpc t f).fmx = s.fmx := rfl
@[simp] theorem State.modTpc_lastReply (s : State) (t : Fin 4) (f : Tpc → Tpc) : (s.modTpc t f).lastReply = s.lastReply := rfl
@[simp] theorem State.modTpc_hallOut (s : State) (t : Fin 4) (f : Tpc → Tpc) : (s.modTpc t f).hallOut = s.hallOut := rfl
@[simp] theorem State.modTpc_trunkOut (s : State) (t : Fin 4) (f : Tpc → Tpc) : (s.modTpc t f).trunkOut = s.trunkOut := rfl
@[simp] theorem State.modTpc_pending (s : State) (t : Fin 4) (f : Tpc → Tpc) : (s.modTpc t f).pending = s.pending := rfl

/-! ### modChan -/

@[simp] theorem State.modChan_startUpHold (s : State) (c : Fin 12) (f : Channel → Channel) : (s.modChan c f).startUpHold = s.startUpHold := rfl
@[simp] theorem State.modChan_hli (s : State) (c : Fin 12) (f : Channel → Channel) : (s.modChan c f).hli = s.hli := rfl
@[simp] theorem State.modChan_mge (s : State) (c : Fin 12) (f : Channel → Channel) : (s.modChan c f).mge = s.mge := rfl
@[simp] theorem State.modChan_stb (s : State) (c : Fin 12) (f : Channel → Channel) : (s.modChan c f).stb = s.stb := rfl
@[simp] theorem State.modChan_trunks (s : State) (c : Fin 12) (f : Channel → Channel) : (s.modChan c f).trunks = s.trunks := rfl
@[simp] theorem State.modChan_slm (s : State) (c : Fin 12) (f : Channel → Channel) : (s.modChan c f).slm = s.slm := rfl
@[simp] theorem State.modChan_fmx (s : State) (c : Fin 12) (f : Channel → Channel) : (s.modChan c f).fmx = s.fmx := rfl
@[simp] theorem State.modChan_lastReply (s : State) (c : Fin 12) (f : Channel → Channel) : (s.modChan c f).lastReply = s.lastReply := rfl
@[simp] theorem State.modChan_hallOut (s : State) (c : Fin 12) (f : Channel → Channel) : (s.modChan c f).hallOut = s.hallOut := rfl
@[simp] theorem State.modChan_trunkOut (s : State) (c : Fin 12) (f : Channel → Channel) : (s.modChan c f).trunkOut = s.trunkOut := rfl
@[simp] theorem State.modChan_pending (s : State) (c : Fin 12) (f : Channel → Channel) : (s.modChan c f).pending = s.pending := rfl

/-! ### modSlm -/

@[simp] theorem State.modSlm_startUpHold (s : State) (c : Fin 12) (f : SlmChan → SlmChan) : (s.modSlm c f).startUpHold = s.startUpHold := rfl
@[simp] theorem State.modSlm_hli (s : State) (c : Fin 12) (f : SlmChan → SlmChan) : (s.modSlm c f).hli = s.hli := rfl
@[simp] theorem State.modSlm_mge (s : State) (c : Fin 12) (f : SlmChan → SlmChan) : (s.modSlm c f).mge = s.mge := rfl
@[simp] theorem State.modSlm_stb (s : State) (c : Fin 12) (f : SlmChan → SlmChan) : (s.modSlm c f).stb = s.stb := rfl
@[simp] theorem State.modSlm_trunks (s : State) (c : Fin 12) (f : SlmChan → SlmChan) : (s.modSlm c f).trunks = s.trunks := rfl
@[simp] theorem State.modSlm_far (s : State) (c : Fin 12) (f : SlmChan → SlmChan) : (s.modSlm c f).far = s.far := rfl
@[simp] theorem State.modSlm_fmx (s : State) (c : Fin 12) (f : SlmChan → SlmChan) : (s.modSlm c f).fmx = s.fmx := rfl
@[simp] theorem State.modSlm_lastReply (s : State) (c : Fin 12) (f : SlmChan → SlmChan) : (s.modSlm c f).lastReply = s.lastReply := rfl
@[simp] theorem State.modSlm_hallOut (s : State) (c : Fin 12) (f : SlmChan → SlmChan) : (s.modSlm c f).hallOut = s.hallOut := rfl
@[simp] theorem State.modSlm_trunkOut (s : State) (c : Fin 12) (f : SlmChan → SlmChan) : (s.modSlm c f).trunkOut = s.trunkOut := rfl
@[simp] theorem State.modSlm_pending (s : State) (c : Fin 12) (f : SlmChan → SlmChan) : (s.modSlm c f).pending = s.pending := rfl

/-! ### modFmx -/

@[simp] theorem State.modFmx_startUpHold (s : State) (c : Fin 12) (f : FmxChan → FmxChan) : (s.modFmx c f).startUpHold = s.startUpHold := rfl
@[simp] theorem State.modFmx_hli (s : State) (c : Fin 12) (f : FmxChan → FmxChan) : (s.modFmx c f).hli = s.hli := rfl
@[simp] theorem State.modFmx_mge (s : State) (c : Fin 12) (f : FmxChan → FmxChan) : (s.modFmx c f).mge = s.mge := rfl
@[simp] theorem State.modFmx_stb (s : State) (c : Fin 12) (f : FmxChan → FmxChan) : (s.modFmx c f).stb = s.stb := rfl
@[simp] theorem State.modFmx_trunks (s : State) (c : Fin 12) (f : FmxChan → FmxChan) : (s.modFmx c f).trunks = s.trunks := rfl
@[simp] theorem State.modFmx_far (s : State) (c : Fin 12) (f : FmxChan → FmxChan) : (s.modFmx c f).far = s.far := rfl
@[simp] theorem State.modFmx_slm (s : State) (c : Fin 12) (f : FmxChan → FmxChan) : (s.modFmx c f).slm = s.slm := rfl
@[simp] theorem State.modFmx_lastReply (s : State) (c : Fin 12) (f : FmxChan → FmxChan) : (s.modFmx c f).lastReply = s.lastReply := rfl
@[simp] theorem State.modFmx_hallOut (s : State) (c : Fin 12) (f : FmxChan → FmxChan) : (s.modFmx c f).hallOut = s.hallOut := rfl
@[simp] theorem State.modFmx_trunkOut (s : State) (c : Fin 12) (f : FmxChan → FmxChan) : (s.modFmx c f).trunkOut = s.trunkOut := rfl
@[simp] theorem State.modFmx_pending (s : State) (c : Fin 12) (f : FmxChan → FmxChan) : (s.modFmx c f).pending = s.pending := rfl

/-! ### setFlag -/

@[simp] theorem State.setFlag_startUpHold (s : State) (g : Flag) : (s.setFlag g).startUpHold = s.startUpHold := rfl
@[simp] theorem State.setFlag_hli (s : State) (g : Flag) : (s.setFlag g).hli = s.hli := rfl
@[simp] theorem State.setFlag_stb (s : State) (g : Flag) : (s.setFlag g).stb = s.stb := rfl
@[simp] theorem State.setFlag_trunks (s : State) (g : Flag) : (s.setFlag g).trunks = s.trunks := rfl
@[simp] theorem State.setFlag_far (s : State) (g : Flag) : (s.setFlag g).far = s.far := rfl
@[simp] theorem State.setFlag_slm (s : State) (g : Flag) : (s.setFlag g).slm = s.slm := rfl
@[simp] theorem State.setFlag_fmx (s : State) (g : Flag) : (s.setFlag g).fmx = s.fmx := rfl
@[simp] theorem State.setFlag_lastReply (s : State) (g : Flag) : (s.setFlag g).lastReply = s.lastReply := rfl
@[simp] theorem State.setFlag_hallOut (s : State) (g : Flag) : (s.setFlag g).hallOut = s.hallOut := rfl
@[simp] theorem State.setFlag_trunkOut (s : State) (g : Flag) : (s.setFlag g).trunkOut = s.trunkOut := rfl
@[simp] theorem State.setFlag_pending (s : State) (g : Flag) : (s.setFlag g).pending = s.pending := rfl

/-! ### trigger -/

@[simp] theorem State.trigger_startUpHold (s : State) : (s.trigger).startUpHold = s.startUpHold := rfl
@[simp] theorem State.trigger_hli (s : State) : (s.trigger).hli = s.hli := rfl
@[simp] theorem State.trigger_mge (s : State) : (s.trigger).mge = s.mge := rfl
@[simp] theorem State.trigger_stb (s : State) : (s.trigger).stb = s.stb := rfl
@[simp] theorem State.trigger_trunks (s : State) : (s.trigger).trunks = s.trunks := rfl
@[simp] theorem State.trigger_slm (s : State) : (s.trigger).slm = s.slm := rfl
@[simp] theorem State.trigger_fmx (s : State) : (s.trigger).fmx = s.fmx := rfl
@[simp] theorem State.trigger_lastReply (s : State) : (s.trigger).lastReply = s.lastReply := rfl
@[simp] theorem State.trigger_hallOut (s : State) : (s.trigger).hallOut = s.hallOut := rfl
@[simp] theorem State.trigger_trunkOut (s : State) : (s.trigger).trunkOut = s.trunkOut := rfl
@[simp] theorem State.trigger_pending (s : State) : (s.trigger).pending = s.pending := rfl

/-! ### setStb -/

@[simp] theorem State.setStb_startUpHold (s : State) (x : Stb) : (s.setStb x).startUpHold = s.startUpHold := rfl
@[simp] theorem State.setStb_hli (s : State) (x : Stb) : (s.setStb x).hli = s.hli := rfl
@[simp] theorem State.setStb_mge (s : State) (x : Stb) : (s.setStb x).mge = s.mge := rfl
@[simp] theorem State.setStb_stb (s : State) (x : Stb) : (s.setStb x).stb = x := rfl
@[simp] theorem State.setStb_trunks (s : State) (x : Stb) : (s.setStb x).trunks = s.trunks := rfl
@[simp] theorem State.setStb_far (s : State) (x : Stb) : (s.setStb x).far = s.far := rfl
@[simp] theorem State.setStb_slm (s : State) (x : Stb) : (s.setStb x).slm = s.slm := rfl
@[simp] theorem State.setStb_fmx (s : State) (x : Stb) : (s.setStb x).fmx = s.fmx := rfl
@[simp] theorem State.setStb_lastReply (s : State) (x : Stb) : (s.setStb x).lastReply = s.lastReply := rfl
@[simp] theorem State.setStb_hallOut (s : State) (x : Stb) : (s.setStb x).hallOut = s.hallOut := rfl
@[simp] theorem State.setStb_trunkOut (s : State) (x : Stb) : (s.setStb x).trunkOut = s.trunkOut := rfl
@[simp] theorem State.setStb_pending (s : State) (x : Stb) : (s.setStb x).pending = s.pending := rfl

/-! ### setReply -/

@[simp] theorem State.setReply_startUpHold (s : State) (r : ReplyRecord) : (s.setReply r).startUpHold = s.startUpHold := rfl
@[simp] theorem State.setReply_hli (s : State) (r : ReplyRecord) : (s.setReply r).hli = s.hli := rfl
@[simp] theorem State.setReply_mge (s : State) (r : ReplyRecord) : (s.setReply r).mge = s.mge := rfl
@[simp] theorem State.setReply_stb (s : State) (r : ReplyRecord) : (s.setReply r).stb = s.stb := rfl
@[simp] theorem State.setReply_trunks (s : State) (r : ReplyRecord) : (s.setReply r).trunks = s.trunks := rfl
@[simp] theorem State.setReply_far (s : State) (r : ReplyRecord) : (s.setReply r).far = s.far := rfl
@[simp] theorem State.setReply_slm (s : State) (r : ReplyRecord) : (s.setReply r).slm = s.slm := rfl
@[simp] theorem State.setReply_fmx (s : State) (r : ReplyRecord) : (s.setReply r).fmx = s.fmx := rfl
@[simp] theorem State.setReply_lastReply (s : State) (r : ReplyRecord) : (s.setReply r).lastReply = some r := rfl
@[simp] theorem State.setReply_hallOut (s : State) (r : ReplyRecord) : (s.setReply r).hallOut = s.hallOut := rfl
@[simp] theorem State.setReply_trunkOut (s : State) (r : ReplyRecord) : (s.setReply r).trunkOut = s.trunkOut := rfl
@[simp] theorem State.setReply_pending (s : State) (r : ReplyRecord) : (s.setReply r).pending = s.pending := rfl

/-! ### Tables behind their accessors -/

@[simp] theorem State.modTpc_tpc_self (s : State) (t : Fin 4) (f : Tpc → Tpc) : (s.modTpc t f).tpc t = f (s.tpc t) := by
  simp [State.tpc, State.modTpc]

@[simp] theorem State.modTpc_tpc_other (s : State) (t u : Fin 4) (f : Tpc → Tpc) (h : t ≠ u) : (s.modTpc t f).tpc u = s.tpc u := by
  simp [State.tpc, State.modTpc, h]

theorem State.modTpc_tpc (s : State) (t u : Fin 4) (f : Tpc → Tpc) : (s.modTpc t f).tpc u = if t = u then f (s.tpc u) else s.tpc u := by
  by_cases h : t = u
  · subst h; simp
  · simp [h]

@[simp] theorem State.modChan_chan_self (s : State) (c : Fin 12) (f : Channel → Channel) : (s.modChan c f).chan c = f (s.chan c) := by
  simp [State.chan, State.modChan]

@[simp] theorem State.modChan_chan_other (s : State) (c d : Fin 12) (f : Channel → Channel) (h : c ≠ d) :
    (s.modChan c f).chan d = s.chan d := by
  simp [State.chan, State.modChan, h]

theorem State.modChan_chan (s : State) (c d : Fin 12) (f : Channel → Channel) :
    (s.modChan c f).chan d = if c = d then f (s.chan d) else s.chan d := by
  by_cases h : c = d
  · subst h; simp
  · simp [h]

@[simp] theorem State.modSlm_slmOf_self (s : State) (c : Fin 12) (f : SlmChan → SlmChan) : (s.modSlm c f).slmOf c = f (s.slmOf c) := by
  simp [State.slmOf, State.modSlm]

@[simp] theorem State.modSlm_slmOf_other (s : State) (c d : Fin 12) (f : SlmChan → SlmChan) (h : c ≠ d) :
    (s.modSlm c f).slmOf d = s.slmOf d := by
  simp [State.slmOf, State.modSlm, h]

@[simp] theorem State.modFmx_fmxOf_self (s : State) (c : Fin 12) (f : FmxChan → FmxChan) : (s.modFmx c f).fmxOf c = f (s.fmxOf c) := by
  simp [State.fmxOf, State.modFmx]

@[simp] theorem State.modFmx_fmxOf_other (s : State) (c d : Fin 12) (f : FmxChan → FmxChan) (h : c ≠ d) :
    (s.modFmx c f).fmxOf d = s.fmxOf d := by
  simp [State.fmxOf, State.modFmx, h]

/-- Seats stand at different places of the Seat Table. -/
theorem seatIndex_inj {x y : Seat} (h : seatIndex x = seatIndex y) : x = y := by
  obtain ⟨⟨a, ha⟩, ⟨b, hb⟩⟩ := x
  obtain ⟨⟨c, hc⟩, ⟨d, hd⟩⟩ := y
  simp only [seatIndex, Fin.mk.injEq] at h
  have : a = c ∧ b = d := by omega
  simp [this]

@[simp] theorem State.modSeat_seatRec_self (s : State) (x : Seat) (f : SeatRec → SeatRec) :
    (s.modSeat x f).seatRec x = f (s.seatRec x) := by
  simp [State.seatRec, State.modSeat]

@[simp] theorem State.modSeat_seatRec_other (s : State) (x y : Seat) (f : SeatRec → SeatRec) (h : x ≠ y) :
    (s.modSeat x f).seatRec y = s.seatRec y := by
  have : seatIndex x ≠ seatIndex y := fun e => h (seatIndex_inj e)
  simp [State.seatRec, State.modSeat, this]

theorem State.modSeat_seatRec (s : State) (x y : Seat) (f : SeatRec → SeatRec) :
    (s.modSeat x f).seatRec y = if x = y then f (s.seatRec y) else s.seatRec y := by
  by_cases h : x = y
  · subst h; simp
  · simp [h]

/-! ### Accessors past updates of other blocks -/

@[simp] theorem State.modFar_tpc (s : State) (f : Far → Far) (u : Fin 4) : (s.modFar f).tpc u = s.tpc u := rfl
@[simp] theorem State.modMge_tpc (s : State) (f : Mge → Mge) (u : Fin 4) : (s.modMge f).tpc u = s.tpc u := rfl
@[simp] theorem State.modHli_tpc (s : State) (f : Hli → Hli) (u : Fin 4) : (s.modHli f).tpc u = s.tpc u := rfl
@[simp] theorem State.modSeat_tpc (s : State) (x : Seat) (f : SeatRec → SeatRec) (u : Fin 4) : (s.modSeat x f).tpc u = s.tpc u := rfl
@[simp] theorem State.modChan_tpc (s : State) (c : Fin 12) (f : Channel → Channel) (u : Fin 4) : (s.modChan c f).tpc u = s.tpc u := rfl
@[simp] theorem State.modSlm_tpc (s : State) (c : Fin 12) (f : SlmChan → SlmChan) (u : Fin 4) : (s.modSlm c f).tpc u = s.tpc u := rfl
@[simp] theorem State.modFmx_tpc (s : State) (c : Fin 12) (f : FmxChan → FmxChan) (u : Fin 4) : (s.modFmx c f).tpc u = s.tpc u := rfl
@[simp] theorem State.setFlag_tpc (s : State) (g : Flag) (u : Fin 4) : (s.setFlag g).tpc u = s.tpc u := rfl
@[simp] theorem State.trigger_tpc (s : State) (u : Fin 4) : (s.trigger).tpc u = s.tpc u := rfl
@[simp] theorem State.setStb_tpc (s : State) (x : Stb) (u : Fin 4) : (s.setStb x).tpc u = s.tpc u := rfl
@[simp] theorem State.setReply_tpc (s : State) (r : ReplyRecord) (u : Fin 4) : (s.setReply r).tpc u = s.tpc u := rfl

@[simp] theorem State.modMge_chan (s : State) (f : Mge → Mge) (d : Fin 12) : (s.modMge f).chan d = s.chan d := rfl
@[simp] theorem State.modHli_chan (s : State) (f : Hli → Hli) (d : Fin 12) : (s.modHli f).chan d = s.chan d := rfl
@[simp] theorem State.modSeat_chan (s : State) (x : Seat) (f : SeatRec → SeatRec) (d : Fin 12) : (s.modSeat x f).chan d = s.chan d := rfl
@[simp] theorem State.modTpc_chan (s : State) (t : Fin 4) (f : Tpc → Tpc) (d : Fin 12) : (s.modTpc t f).chan d = s.chan d := rfl
@[simp] theorem State.modSlm_chan (s : State) (c : Fin 12) (f : SlmChan → SlmChan) (d : Fin 12) : (s.modSlm c f).chan d = s.chan d := rfl
@[simp] theorem State.modFmx_chan (s : State) (c : Fin 12) (f : FmxChan → FmxChan) (d : Fin 12) : (s.modFmx c f).chan d = s.chan d := rfl
@[simp] theorem State.setFlag_chan (s : State) (g : Flag) (d : Fin 12) : (s.setFlag g).chan d = s.chan d := rfl
@[simp] theorem State.trigger_chan (s : State) (d : Fin 12) : (s.trigger).chan d = s.chan d := rfl
@[simp] theorem State.setStb_chan (s : State) (x : Stb) (d : Fin 12) : (s.setStb x).chan d = s.chan d := rfl
@[simp] theorem State.setReply_chan (s : State) (r : ReplyRecord) (d : Fin 12) : (s.setReply r).chan d = s.chan d := rfl

@[simp] theorem State.modFar_slmOf (s : State) (f : Far → Far) (d : Fin 12) : (s.modFar f).slmOf d = s.slmOf d := rfl
@[simp] theorem State.modMge_slmOf (s : State) (f : Mge → Mge) (d : Fin 12) : (s.modMge f).slmOf d = s.slmOf d := rfl
@[simp] theorem State.modHli_slmOf (s : State) (f : Hli → Hli) (d : Fin 12) : (s.modHli f).slmOf d = s.slmOf d := rfl
@[simp] theorem State.modSeat_slmOf (s : State) (x : Seat) (f : SeatRec → SeatRec) (d : Fin 12) : (s.modSeat x f).slmOf d = s.slmOf d := rfl
@[simp] theorem State.modTpc_slmOf (s : State) (t : Fin 4) (f : Tpc → Tpc) (d : Fin 12) : (s.modTpc t f).slmOf d = s.slmOf d := rfl
@[simp] theorem State.modChan_slmOf (s : State) (c : Fin 12) (f : Channel → Channel) (d : Fin 12) : (s.modChan c f).slmOf d = s.slmOf d := rfl
@[simp] theorem State.modFmx_slmOf (s : State) (c : Fin 12) (f : FmxChan → FmxChan) (d : Fin 12) : (s.modFmx c f).slmOf d = s.slmOf d := rfl
@[simp] theorem State.setFlag_slmOf (s : State) (g : Flag) (d : Fin 12) : (s.setFlag g).slmOf d = s.slmOf d := rfl
@[simp] theorem State.trigger_slmOf (s : State) (d : Fin 12) : (s.trigger).slmOf d = s.slmOf d := rfl
@[simp] theorem State.setStb_slmOf (s : State) (x : Stb) (d : Fin 12) : (s.setStb x).slmOf d = s.slmOf d := rfl
@[simp] theorem State.setReply_slmOf (s : State) (r : ReplyRecord) (d : Fin 12) : (s.setReply r).slmOf d = s.slmOf d := rfl

@[simp] theorem State.modFar_fmxOf (s : State) (f : Far → Far) (d : Fin 12) : (s.modFar f).fmxOf d = s.fmxOf d := rfl
@[simp] theorem State.modMge_fmxOf (s : State) (f : Mge → Mge) (d : Fin 12) : (s.modMge f).fmxOf d = s.fmxOf d := rfl
@[simp] theorem State.modHli_fmxOf (s : State) (f : Hli → Hli) (d : Fin 12) : (s.modHli f).fmxOf d = s.fmxOf d := rfl
@[simp] theorem State.modSeat_fmxOf (s : State) (x : Seat) (f : SeatRec → SeatRec) (d : Fin 12) : (s.modSeat x f).fmxOf d = s.fmxOf d := rfl
@[simp] theorem State.modTpc_fmxOf (s : State) (t : Fin 4) (f : Tpc → Tpc) (d : Fin 12) : (s.modTpc t f).fmxOf d = s.fmxOf d := rfl
@[simp] theorem State.modChan_fmxOf (s : State) (c : Fin 12) (f : Channel → Channel) (d : Fin 12) : (s.modChan c f).fmxOf d = s.fmxOf d := rfl
@[simp] theorem State.modSlm_fmxOf (s : State) (c : Fin 12) (f : SlmChan → SlmChan) (d : Fin 12) : (s.modSlm c f).fmxOf d = s.fmxOf d := rfl
@[simp] theorem State.setFlag_fmxOf (s : State) (g : Flag) (d : Fin 12) : (s.setFlag g).fmxOf d = s.fmxOf d := rfl
@[simp] theorem State.trigger_fmxOf (s : State) (d : Fin 12) : (s.trigger).fmxOf d = s.fmxOf d := rfl
@[simp] theorem State.setStb_fmxOf (s : State) (x : Stb) (d : Fin 12) : (s.setStb x).fmxOf d = s.fmxOf d := rfl
@[simp] theorem State.setReply_fmxOf (s : State) (r : ReplyRecord) (d : Fin 12) : (s.setReply r).fmxOf d = s.fmxOf d := rfl

@[simp] theorem State.modFar_seatRec (s : State) (f : Far → Far) (y : Seat) : (s.modFar f).seatRec y = s.seatRec y := rfl
@[simp] theorem State.modMge_seatRec (s : State) (f : Mge → Mge) (y : Seat) : (s.modMge f).seatRec y = s.seatRec y := rfl
@[simp] theorem State.modHli_seatRec (s : State) (f : Hli → Hli) (y : Seat) : (s.modHli f).seatRec y = s.seatRec y := rfl
@[simp] theorem State.modTpc_seatRec (s : State) (t : Fin 4) (f : Tpc → Tpc) (y : Seat) : (s.modTpc t f).seatRec y = s.seatRec y := rfl
@[simp] theorem State.modChan_seatRec (s : State) (c : Fin 12) (f : Channel → Channel) (y : Seat) : (s.modChan c f).seatRec y = s.seatRec y := rfl
@[simp] theorem State.modSlm_seatRec (s : State) (c : Fin 12) (f : SlmChan → SlmChan) (y : Seat) : (s.modSlm c f).seatRec y = s.seatRec y := rfl
@[simp] theorem State.modFmx_seatRec (s : State) (c : Fin 12) (f : FmxChan → FmxChan) (y : Seat) : (s.modFmx c f).seatRec y = s.seatRec y := rfl
@[simp] theorem State.setFlag_seatRec (s : State) (g : Flag) (y : Seat) : (s.setFlag g).seatRec y = s.seatRec y := rfl
@[simp] theorem State.trigger_seatRec (s : State) (y : Seat) : (s.trigger).seatRec y = s.seatRec y := rfl
@[simp] theorem State.setReply_seatRec (s : State) (r : ReplyRecord) (y : Seat) : (s.setReply r).seatRec y = s.seatRec y := rfl

@[simp] theorem State.modChan_far_openSeq (s : State) (c : Fin 12) (f : Channel → Channel) : (s.modChan c f).far.openSeq = s.far.openSeq := rfl
@[simp] theorem State.modChan_far_list (s : State) (c : Fin 12) (f : Channel → Channel) : (s.modChan c f).far.list = s.far.list := rfl
@[simp] theorem State.modChan_far_holdSet (s : State) (c : Fin 12) (f : Channel → Channel) : (s.modChan c f).far.holdSet = s.far.holdSet := rfl
@[simp] theorem State.modChan_far_holdLevel (s : State) (c : Fin 12) (f : Channel → Channel) : (s.modChan c f).far.holdLevel = s.far.holdLevel := rfl
@[simp] theorem State.modChan_far_claimed (s : State) (c : Fin 12) (f : Channel → Channel) : (s.modChan c f).far.claimed = s.far.claimed := rfl
@[simp] theorem State.modChan_far_holder (s : State) (c : Fin 12) (f : Channel → Channel) : (s.modChan c f).far.holder = s.far.holder := rfl
@[simp] theorem State.modChan_far_forceReturn (s : State) (c : Fin 12) (f : Channel → Channel) : (s.modChan c f).far.forceReturn = s.far.forceReturn := rfl
@[simp] theorem State.modChan_far_promotionDeferred (s : State) (c : Fin 12) (f : Channel → Channel) : (s.modChan c f).far.promotionDeferred = s.far.promotionDeferred := rfl
@[simp] theorem State.trigger_far_openSeq (s : State) : (s.trigger).far.openSeq = s.far.openSeq := rfl
@[simp] theorem State.trigger_far_list (s : State) : (s.trigger).far.list = s.far.list := rfl
@[simp] theorem State.trigger_far_holdSet (s : State) : (s.trigger).far.holdSet = s.far.holdSet := rfl
@[simp] theorem State.trigger_far_holdLevel (s : State) : (s.trigger).far.holdLevel = s.far.holdLevel := rfl
@[simp] theorem State.trigger_far_claimed (s : State) : (s.trigger).far.claimed = s.far.claimed := rfl
@[simp] theorem State.trigger_far_holder (s : State) : (s.trigger).far.holder = s.far.holder := rfl
@[simp] theorem State.trigger_far_forceReturn (s : State) : (s.trigger).far.forceReturn = s.far.forceReturn := rfl
@[simp] theorem State.trigger_far_channels (s : State) : (s.trigger).far.channels = s.far.channels := rfl
@[simp] theorem State.trigger_far_promotionDeferred (s : State) : s.trigger.far.promotionDeferred = true := rfl
@[simp] theorem State.setFlag_mge_settings (s : State) (g : Flag) : (s.setFlag g).mge.settings = s.mge.settings := rfl
@[simp] theorem State.setFlag_mge_sittingOpen (s : State) (g : Flag) : (s.setFlag g).mge.sittingOpen = s.mge.sittingOpen := rfl
@[simp] theorem State.setFlag_mge_reportMask (s : State) (g : Flag) : (s.setFlag g).mge.reportMask = s.mge.reportMask := rfl
@[simp] theorem State.setFlag_mge_refused (s : State) (g : Flag) : (s.setFlag g).mge.refused = s.mge.refused := rfl
@[simp] theorem State.setFlag_mge_lapsed (s : State) (g : Flag) : (s.setFlag g).mge.lapsed = s.mge.lapsed := rfl
@[simp] theorem State.setFlag_mge_noticesLost (s : State) (g : Flag) : (s.setFlag g).mge.noticesLost = s.mge.noticesLost := rfl
@[simp] theorem State.setFlag_mge_resetCause (s : State) (g : Flag) : (s.setFlag g).mge.resetCause = s.mge.resetCause := rfl
@[simp] theorem State.setFlag_mge_batch (s : State) (g : Flag) : (s.setFlag g).mge.batch = s.mge.batch := rfl
@[simp] theorem State.setFlag_mge_decisecondPhase (s : State) (g : Flag) : (s.setFlag g).mge.decisecondPhase = s.mge.decisecondPhase := rfl
@[simp] theorem State.setFlag_mge_secondPhase (s : State) (g : Flag) : (s.setFlag g).mge.secondPhase = s.mge.secondPhase := rfl

/-- The classes and zones stand past a change of a seat record. -/
@[simp] theorem State.modSeat_classes (s : State) (x : Seat) (f : SeatRec → SeatRec) : (s.modSeat x f).stb.classes = s.stb.classes := rfl

@[simp] theorem State.modSeat_zones (s : State) (x : Seat) (f : SeatRec → SeatRec) : (s.modSeat x f).stb.zones = s.stb.zones := rfl

end Machine

end Sys2Proof
end

