-- ==== Sys2Proof/Laws/Moves.lean ====
section
/-! SUPPORT. Everything the engine's operations can do, said once: `Move` lists the single updates, and each operation is a path of
them. An invariant that every `Move` keeps is kept by every operation. -/

namespace Sys2Proof.Machine

/-- No other channel that is not FREE holds the talk slot (R54). -/
def State.slotFreeFor (s : State) (c : Fin 12) (t : Fin 4) (k : Fin 6) : Prop :=
  ∀ d, d ≠ c → (s.chan d).state ≠ .free → (s.chan d).trunk = some t → (s.chan d).slot ≠ some k

/-- One update; the index says whether replies, frames sent and HLI's queues may change other than by a notice queued. A channel's freeness changes only together with the open sequence (R52); classes, zones and seat classes, the floor
settings and the sitting do not change (records that change them are not paths of moves). -/
inductive Move : Bool → State → State → Prop where
  | notice {o : Bool} (n : Notice) (s : State) : Move o s (s.notify n)
  | flag {o : Bool} (g : Flag) (s : State) : Move o s (s.setFlag g)
  | mge {o : Bool} (f : Mge → Mge) (s : State) (settings : (f s.mge).settings = s.mge.settings) (sitting : (f s.mge).sittingOpen = s.mge.sittingOpen)
      (batch : (f s.mge).batch = s.mge.batch ∨ ∀ n, (f s.mge).batch = some n → n ≤ max 7 (s.mge.batch.getD 0))
      (ds : (f s.mge).decisecondPhase = s.mge.decisecondPhase ∨ (f s.mge).decisecondPhase < 1600)
      (sec : (f s.mge).secondPhase = s.mge.secondPhase ∨ (f s.mge).secondPhase < 10) : Move o s (s.modMge f)
  | hli {o : Bool} (f : Hli → Hli) (s : State) (replies : (f s.hli).replyQueue = s.hli.replyQueue)
      (notices : (f s.hli).noticeQueue = s.hli.noticeQueue) : Move o s (s.modHli f)
  | queues (f : Hli → Hli) (s : State) (replies : (f s.hli).replyQueue.length ≤ max 4 s.hli.replyQueue.length)
      (notices : (f s.hli).noticeQueue.length ≤ s.hli.noticeQueue.length) : Move true s (s.modHli f)
  | tpc {o : Bool} (t : Fin 4) (f : Tpc → Tpc) (s : State) (echoes : (f (s.tpc t)).echoes.length ≤ max 2 (s.tpc t).echoes.length) :
      Move o s (s.modTpc t f)
  | seat {o : Bool} (x : Seat) (f : SeatRec → SeatRec) (s : State) (cls : (f (s.seatRec x)).cls = (s.seatRec x).cls) : Move o s (s.modSeat x f)
  | slm {o : Bool} (c : Fin 12) (f : SlmChan → SlmChan) (s : State) : Move o s (s.modSlm c f)
  | fmx {o : Bool} (x : Fmx) (s : State) : Move o s { s with fmx := x }
  | chan {o : Bool} (c : Fin 12) (f : Channel → Channel) (s : State) (free : (f (s.chan c)).state = .free ↔ (s.chan c).state = .free)
      (seat : (f (s.chan c)).seat = (s.chan c).seat) (trunk : (f (s.chan c)).trunk = (s.chan c).trunk)
      (slot : (f (s.chan c)).slot = (s.chan c).slot)
      (successor : (s.chan c).state = .free → (f (s.chan c)).successor = none ∨ (f (s.chan c)).successor = (s.chan c).successor) :
      Move o s (s.modChan c f)
  | handover {o : Bool} (c : Fin 12) (x : Seat) (ch : Channel) (s : State) (busy : (s.chan c).state ≠ .free) (taken : ch.state ≠ .free)
      (seat : ch.seat = some x) (trunk : ch.trunk = some x.trunk)
      (slot : ((s.chan c).trunk = some x.trunk ∧ ch.slot = (s.chan c).slot) ∨ ∃ k, ch.slot = some k ∧ s.slotFreeFor c x.trunk k) :
      Move o s (s.modChan c fun _ => ch)
  | alloc {o : Bool} (c : Fin 12) (x : Seat) (k : Fin 6) (ch : Channel) (s : State) (free : (s.chan c).state = .free) (taken : ch.state ≠ .free)
      (seat : ch.seat = some x) (trunk : ch.trunk = some x.trunk) (slot : ch.slot = some k) (exclusive : s.slotFreeFor c x.trunk k) :
      Move o s ((s.modChan c fun _ => ch).modFar fun f => { f with openSeq := f.openSeq ++ [c] })
  | clear {o : Bool} (c : Fin 12) (s : State) : Move o s (s.clearChan c)
  | far {o : Bool} (f : Far → Far) (s : State) (channels : (f s.far).channels = s.far.channels) (openSeq : (f s.far).openSeq = s.far.openSeq)
      (list : (f s.far).list.length ≤ max 64 s.far.list.length) : Move o s (s.modFar f)
  | reply (r : ReplyRecord) (s : State) : Move true s (s.setReply r)
  | hallOut (x : Option (List Byte)) (s : State) : Move true s { s with hallOut := x }
  | trunkOut (x : Vector (Option (List Byte)) 4) (s : State) : Move true s { s with trunkOut := x }

/-- A path of moves. -/
abbrev Moves (o : Bool) : State → State → Prop := Relation.ReflTransGen (Move o)

variable {o : Bool}

/-- A property that every move keeps is kept along a path. -/
theorem Moves.keeps {P : State → Prop} (hP : ∀ {a b}, Move o a b → P a → P b) {a b : State} (h : Moves o a b) (ha : P a) : P b := by
  induction h with
  | refl => exact ha
  | tail _ hm ih => exact hP hm ih

/-- A path over a list of operations, each a path. -/
theorem Moves.foldl {α : Type} (f : State → α → State) (hf : ∀ s x, Moves o s (f s x)) (l : List α) (s : State) : Moves o s (l.foldl f s) := by
  induction l generalizing s with
  | nil => exact .refl
  | cons x l ih => exact (hf s x).trans (ih _)

theorem Moves.ite {P : Prop} [Decidable P] {s a b : State} (ha : Moves o s a) (hb : Moves o s b) : Moves o s (if P then a else b) := by
  split <;> assumption

/-- What no inner path touches: the replies, the last reply, the frames sent last, the start-up hold, the command queue, the classes and
zones, the settings and the sitting. -/
theorem Moves.frame {s t : State} (h : Moves false s t) :
    t.hli.replyQueue = s.hli.replyQueue ∧ t.lastReply = s.lastReply ∧ t.hallOut = s.hallOut ∧ t.trunkOut = s.trunkOut
      ∧ t.startUpHold = s.startUpHold ∧ t.pending = s.pending ∧ t.stb.classes = s.stb.classes ∧ t.stb.zones = s.stb.zones
      ∧ t.mge.settings = s.mge.settings ∧ t.mge.sittingOpen = s.mge.sittingOpen := by
  refine Moves.keeps (P := fun t => t.hli.replyQueue = s.hli.replyQueue ∧ t.lastReply = s.lastReply ∧ t.hallOut = s.hallOut
    ∧ t.trunkOut = s.trunkOut ∧ t.startUpHold = s.startUpHold ∧ t.pending = s.pending ∧ t.stb.classes = s.stb.classes
    ∧ t.stb.zones = s.stb.zones ∧ t.mge.settings = s.mge.settings ∧ t.mge.sittingOpen = s.mge.sittingOpen) ?_ h (by simp)
  intro a b hm ha
  cases hm
  case notice n =>
    unfold State.notify
    split
    · split <;> exact ha
    · exact ha
  case mge f h1 h2 _ _ _ => simpa [h1, h2] using ha
  case hli f h1 h2 => simpa [h1] using ha
  all_goals exact ha

/-! ### Named updates -/

theorem State.notify_moves (s : State) (n : Notice) : Moves o s (s.notify n) := .single (.notice n s)
theorem State.setFlag_moves (s : State) (g : Flag) : Moves o s (s.setFlag g) := .single (.flag g s)
theorem State.trigger_moves (s : State) : Moves o s s.trigger := .single (.far _ s rfl rfl (by simp))

theorem State.modSlm_moves (s : State) (c : Fin 12) (f : SlmChan → SlmChan) : Moves o s (s.modSlm c f) := .single (.slm c f s)
theorem State.modFmx_moves (s : State) (c : Fin 12) (f : FmxChan → FmxChan) : Moves o s (s.modFmx c f) := .single (.fmx _ s)

theorem State.modTpc_moves (s : State) (t : Fin 4) (f : Tpc → Tpc) (h : (f (s.tpc t)).echoes = (s.tpc t).echoes) : Moves o s (s.modTpc t f) :=
  .single (.tpc t f s (by simp [h]))

theorem State.modSeat_moves (s : State) (x : Seat) (f : SeatRec → SeatRec) (h : (f (s.seatRec x)).cls = (s.seatRec x).cls) :
    Moves o s (s.modSeat x f) := .single (.seat x f s h)

theorem State.clearChan_moves (s : State) (c : Fin 12) : Moves o s (s.clearChan c) := .single (.clear c s)

theorem State.modMge_counts_moves (s : State) (f : Mge → Mge) (h1 : (f s.mge).settings = s.mge.settings)
    (h2 : (f s.mge).sittingOpen = s.mge.sittingOpen) (h3 : (f s.mge).batch = s.mge.batch)
    (h4 : (f s.mge).decisecondPhase = s.mge.decisecondPhase) (h5 : (f s.mge).secondPhase = s.mge.secondPhase) : Moves o s (s.modMge f) :=
  .single (.mge f s h1 h2 (.inl h3) (.inl h4) (.inl h5))

theorem State.setAvailability_moves (s : State) (x : Seat) (a : Availability) : Moves o s (s.setAvailability x a) := by
  unfold State.setAvailability
  split
  · exact .refl
  · exact (s.modSeat_moves x _ rfl).trans (State.notify_moves _ _)

/-! ### Command queues -/

theorem State.placeReport_moves (s : State) (x : Seat) (cmd : Cmd) : Moves o s (s.placeReport x cmd).1 := by
  unfold State.placeReport
  split
  · exact s.modTpc_moves x.trunk (fun p => { p with queue := (enqueue x.pos cmd p.queue).1 }) rfl
  · exact .refl

theorem State.place_moves (s : State) (x : Seat) (cmd : Cmd) : Moves o s (s.place x cmd) := s.placeReport_moves x cmd

theorem State.discardUnsent_moves (s : State) (x : Seat) : Moves o s (s.discardUnsent x) :=
  s.modTpc_moves x.trunk (fun p => { p with queue := p.queue.filter fun e => e.target ≠ some x.pos }) rfl

/-- A placement leaves the floor arbiter alone. -/
@[simp] theorem State.placeReport_far (s : State) (x : Seat) (cmd : Cmd) : (s.placeReport x cmd).1.far = s.far := by
  unfold State.placeReport; split <;> rfl

@[simp] theorem State.placeReport_chan (s : State) (x : Seat) (cmd : Cmd) (c : Fin 12) : (s.placeReport x cmd).1.chan c = s.chan c := by
  simp [State.chan]

@[simp] theorem State.place_far (s : State) (x : Seat) (cmd : Cmd) : (s.place x cmd).far = s.far := s.placeReport_far x cmd

@[simp] theorem State.place_chan (s : State) (x : Seat) (cmd : Cmd) (c : Fin 12) : (s.place x cmd).chan c = s.chan c :=
  s.placeReport_chan x cmd c

/-- A notice leaves the floor arbiter alone. -/
@[simp] theorem State.notify_far (s : State) (n : Notice) : (s.notify n).far = s.far := by
  unfold State.notify; split
  · split <;> rfl
  · rfl

@[simp] theorem State.notify_chan (s : State) (n : Notice) (c : Fin 12) : (s.notify n).chan c = s.chan c := by simp [State.chan]

/-! ### Channels -/

theorem State.startWindow_moves (s : State) (c : Fin 12) : Moves o s (s.startWindow c) := by
  unfold State.startWindow
  split
  · exact s.modSlm_moves _ _
  · exact .refl

theorem State.abortWindow_moves (s : State) (c : Fin 12) : Moves o s (s.abortWindow c) := s.modSlm_moves _ _

theorem State.addClock_moves (s : State) (c : Fin 12) : Moves o s (s.addClock c) := by
  unfold State.addClock
  split
  · exact s.modSeat_moves _ _ rfl
  · exact .refl

@[simp] theorem State.abortWindow_far (s : State) (c : Fin 12) : (s.abortWindow c).far = s.far := rfl

@[simp] theorem State.addClock_far (s : State) (c : Fin 12) : (s.addClock c).far = s.far := by
  unfold State.addClock; split <;> rfl

@[simp] theorem State.addClock_chan (s : State) (c d : Fin 12) : (s.addClock c).chan d = s.chan d := by simp [State.chan]

@[simp] theorem State.abortWindow_chan (s : State) (c d : Fin 12) : (s.abortWindow c).chan d = s.chan d := rfl

theorem State.countGrant_moves (s : State) (c : Fin 12) : Moves o s (s.countGrant c) := by
  unfold State.countGrant
  split
  · exact s.modSeat_moves _ _ rfl
  · exact .refl

theorem State.notifyChan_moves (s : State) (c : Fin 12) (n : Seat → Notice) : Moves o s (s.notifyChan c n) := by
  unfold State.notifyChan
  split
  · exact s.notify_moves _
  · exact .refl

theorem State.notifyClose_moves (s : State) (c : Fin 12) (cause : CloseCause) : Moves o s (s.notifyClose c cause) := s.notifyChan_moves _ _

@[simp] theorem State.notifyChan_far (s : State) (c : Fin 12) (n : Seat → Notice) : (s.notifyChan c n).far = s.far := by
  unfold State.notifyChan; split <;> simp

@[simp] theorem State.notifyClose_far (s : State) (c : Fin 12) (cause : CloseCause) : (s.notifyClose c cause).far = s.far :=
  s.notifyChan_far _ _

@[simp] theorem State.notifyClose_chan (s : State) (c d : Fin 12) (cause : CloseCause) : (s.notifyClose c cause).chan d = s.chan d := by
  simp [State.chan]

theorem State.freeChannel_moves (s : State) (c : Fin 12) (cause : CloseCause) : Moves o s (s.freeChannel c cause) := by
  unfold State.freeChannel
  split
  · exact .refl
  · exact ((((s.addClock_moves c).trans (State.abortWindow_moves _ c)).trans (State.notifyClose_moves _ _ _)).trans
      (State.clearChan_moves _ _)).trans (State.trigger_moves _)
  · exact (((s.addClock_moves c).trans (State.notifyClose_moves _ _ _)).trans (State.clearChan_moves _ _)).trans (State.trigger_moves _)
  all_goals exact ((s.notifyClose_moves _ _).trans (State.clearChan_moves _ _)).trans (State.trigger_moves _)

theorem State.setUpAudio_moves (s : State) (c : Fin 12) : Moves o s (s.setUpAudio c) := (s.modSlm_moves _ _).trans (State.modFmx_moves _ _ _)

@[simp] theorem State.setUpAudio_far (s : State) (c : Fin 12) : (s.setUpAudio c).far = s.far := rfl

/-- A change of a channel that is not FREE and stays so. -/
theorem State.modChan_moves (s : State) (c : Fin 12) (f : Channel → Channel) (h : (s.chan c).state ≠ .free)
    (h' : (f (s.chan c)).state ≠ .free) (seat : (f (s.chan c)).seat = (s.chan c).seat := by rfl)
    (trunk : (f (s.chan c)).trunk = (s.chan c).trunk := by rfl) (slot : (f (s.chan c)).slot = (s.chan c).slot := by rfl) :
    Moves o s (s.modChan c f) := .single (.chan c f s (by simp [h, h']) seat trunk slot fun e => absurd e h)

/-- The successor of a channel is dropped. -/
theorem State.dropSuccessor_moves (s : State) (c : Fin 12) : Moves o s (s.modChan c fun ch => { ch with successor := none }) :=
  .single (.chan c _ s Iff.rfl rfl rfl rfl fun _ => .inl rfl)

/-- A free talk slot is held by no channel that is counted (R53, R54). -/
theorem State.freeSlot_exclusive {s : State} {skip : Option (Fin 12)} {t : Fin 4} {k : Fin 6} (h : s.freeSlot skip t = some k) (d : Fin 12)
    (hd : skip ≠ some d) (busy : (s.chan d).state ≠ .free) (trunk : (s.chan d).trunk = some t) : (s.chan d).slot ≠ some k := by
  intro slot
  have h1 := List.find?_some h
  simp only [State.slotHolder, Option.isNone_iff_eq_none, List.find?_eq_none, Bool.and_eq_true, not_and, State.counts] at h1
  refine h1 d (by fin_cases d <;> decide) ?_ (by simpa using slot)
  simp [hd, busy, trunk]

/-- Leaving out a channel of another trunk changes no free slot. -/
theorem State.freeSlot_other {s : State} {c : Fin 12} {t : Fin 4} (h : (s.chan c).trunk ≠ some t) :
    s.freeSlot (some c) t = s.freeSlot none t := by
  have e : ∀ k, s.slotHolder (some c) t k = s.slotHolder none t k := by
    intro k
    unfold State.slotHolder
    congr 1
    funext d
    by_cases hd : d = c
    · subst hd
      simp [h]
    · have : c ≠ d := fun x => hd x.symm
      simp [State.counts, this]
  unfold State.freeSlot
  simp only [e]

theorem State.handover_moves (s : State) (c : Fin 12) (x : Seat) (h : (s.chan c).state ≠ .free) (valid : s.successorValid c x = true) :
    Moves o s (s.handover c x) := by
  unfold State.handover
  refine ((s.notifyClose_moves c _).trans (.single (.handover c x _ _ ?_ ?_ rfl rfl ?_))).trans (State.setUpAudio_moves _ _)
  · simpa using h
  · simp [State.openingEntry]
  · simp only [State.notifyClose_chan, State.openingEntry, State.handoverSlot]
    by_cases ht : (s.chan c).trunk = some x.trunk
    · left
      simp [ht]
    · right
      rw [if_neg ht]
      have hs : (s.freeSlot (some c) x.trunk).isSome = true := by
        simp only [State.successorValid, State.roomConditions, Bool.and_eq_true] at valid
        exact valid.2.1.1
      rw [State.freeSlot_other ht] at hs
      obtain ⟨k, hk⟩ := Option.isSome_iff_exists.mp hs
      refine ⟨k, hk, fun d hd busy trunk => ?_⟩
      rw [State.notifyClose_chan] at *
      exact State.freeSlot_exclusive hk d (by simp) busy trunk

theorem State.closingElsewhere_closing {s : State} {x : Seat} {c d : Fin 12} (h : s.closingElsewhere x c = some d) :
    (s.chan d).state = .closing := by
  have := List.find?_some h
  simp only [decide_eq_true_eq] at this
  exact this.2.1

theorem State.endCloseN_moves (n : Nat) (s : State) (c : Fin 12) (h : (s.chan c).state ≠ .free) : Moves o s (s.endCloseN n c) := by
  induction n generalizing s c with
  | zero => exact .refl
  | succ n ih =>
    unfold State.endCloseN
    split
    · exact s.freeChannel_moves _ _
    · split
      · rename_i x _ valid
        refine (s.handover_moves c x h valid).trans ?_
        generalize s.handover c x = s1
        refine (s1.placeReport_moves x (s1.chan c).openCmd).trans ?_
        dsimp only
        split
        · split
          · rename_i hd
            exact ih _ _ (by rw [State.closingElsewhere_closing hd]; simp)
          · exact .refl
        · exact .refl
      · exact s.freeChannel_moves _ _

theorem State.endClose_moves (s : State) (c : Fin 12) (h : (s.chan c).state ≠ .free) : Moves o s (s.endClose c) := s.endCloseN_moves 12 c h

theorem State.placeOpen_moves (s : State) (c : Fin 12) (x : Seat) : Moves o s (s.placeOpen c x) := by
  unfold State.placeOpen
  refine (s.placeReport_moves x (s.chan c).openCmd).trans ?_
  dsimp only
  split
  · split
    · rename_i hd
      exact State.endClose_moves _ _ (by rw [State.closingElsewhere_closing hd]; simp)
    · exact .refl
  · exact .refl

theorem State.enterClosing_moves (s : State) (c : Fin 12) (cause : CloseCause) (h : (s.chan c).state ≠ .free) :
    Moves o s (s.enterClosing c cause) := by
  unfold State.enterClosing
  refine (s.modChan_moves c (fun ch => { ch with state := .closing, closeCause := some cause }) h (by simp)).trans ?_
  dsimp only
  split
  · exact State.place_moves _ _ _
  · exact .refl

/-! ### List and offers -/

theorem State.modFar_list_moves (s : State) (g : List Entry → List Entry) (h : (g s.far.list).length ≤ max 64 s.far.list.length) :
    Moves o s (s.modFar fun f => { f with list := g f.list }) := .single (.far _ s rfl rfl h)

theorem State.listRemove_moves (s : State) (x : Seat) (cause : RemovalCause) : Moves o s (s.listRemove x cause) := by
  unfold State.listRemove
  split
  · rename_i i _ _
    refine (s.modFar_list_moves (fun l => l.eraseIdx i) (le_trans (List.length_eraseIdx_le ..) (le_max_right _ _))).trans ?_
    generalize s.modFar (fun f => { f with list := f.list.eraseIdx i }) = s1
    refine (s1.notify_moves (.listRemove x cause i s1.far.list.length)).trans ?_
    dsimp only
    split
    · exact State.place_moves _ _ _
    · exact .refl
  · exact .refl

theorem State.endOffer_moves (s : State) (x : Seat) (removal : RemovalCause) (cause : CloseCause) (w : Bool) :
    Moves o s (s.endOffer x removal cause w) := by
  unfold State.endOffer
  refine (s.listRemove_moves x removal).trans ?_
  generalize s.listRemove x removal = s1
  have h : Moves o s1 (if w then s1.place x .withdraw else s1) := .ite (s1.place_moves _ _) .refl
  refine h.trans ?_
  dsimp only
  generalize (if w then s1.place x .withdraw else s1) = s2
  split
  · exact State.freeChannel_moves _ _ _
  · exact .refl

theorem State.closeRequest_moves (s : State) (c : Fin 12) (cause : CloseCause) : Moves o s (s.closeRequest c cause) := by
  unfold State.closeRequest
  split
  · exact .refl
  · exact .refl
  · split
    · exact s.endOffer_moves _ _ _ _
    · exact s.freeChannel_moves _ _
  · rename_i h
    split
    · split
      · exact (s.place_moves _ _).trans (State.freeChannel_moves _ _ _)
      · exact s.enterClosing_moves _ _ (by simp [h])
    · exact s.enterClosing_moves _ _ (by simp [h])
  · rename_i h
    exact ((s.enterClosing_moves _ _ (by simp [h])).trans (State.abortWindow_moves _ _)).trans (State.addClock_moves _ _)
  · rename_i h
    exact (s.enterClosing_moves _ _ (by simp [h])).trans (State.addClock_moves _ _)

theorem State.dropSuccession_moves (s : State) (x : Seat) : Moves o s (s.dropSuccession x) := by
  unfold State.dropSuccession
  split
  · exact s.dropSuccessor_moves _
  · exact .refl

theorem State.insertAt_moves (s : State) (x : Seat) (origin : Origin) (i : Nat) (h : s.far.list.length < 64) : Moves o s (s.insertAt x origin i) := by
  unfold State.insertAt
  dsimp only
  generalize (⟨x, s.kindOf x, s.levelOf x, (s.classOf x).group, origin, .waiting, none, none⟩ : Entry) = e
  refine (s.modFar_list_moves (fun l => l.take i ++ e :: l.drop i) ?_).trans ?_
  · simp only [List.length_append, List.length_take, List.length_cons, List.length_drop]; omega
  · generalize s.modFar (fun f => { f with list := f.list.take i ++ e :: f.list.drop i }) = s1
    exact ((s1.place_moves x .queued).trans (State.notify_moves _ _)).trans (Moves.ite .refl (State.trigger_moves _))

theorem State.insertRequest_moves (s : State) (x : Seat) (origin : Origin) : Moves o s (s.insertRequest x origin) := by
  unfold State.insertRequest
  split
  · exact ((s.place_moves _ _).trans (State.modMge_counts_moves _ _ rfl rfl rfl rfl rfl)).trans (State.setFlag_moves _ _)
  · rename_i h
    exact s.insertAt_moves _ _ _ (by simpa [Config.listCapacity] using h)

theorem State.freeChan_free {s : State} {c : Fin 12} (h : s.freeChan = some c) : (s.chan c).state = .free := by
  simpa using List.find?_some h

theorem State.allocate_moves (s : State) (x : Seat) (cause : OpeningCause) : Moves o s (s.allocate x cause) := by
  unfold State.allocate
  split
  · rename_i h hk
    exact ((Relation.ReflTransGen.single (Move.alloc _ x _ _ s (State.freeChan_free h) (by simp [State.openingEntry]) rfl rfl rfl
      fun d _ => State.freeSlot_exclusive hk d (by simp))).trans (State.setUpAudio_moves _ _)).trans (State.placeOpen_moves _ _ _)
  · exact .refl

theorem State.modEntry_moves (s : State) (x : Seat) (f : Entry → Entry) : Moves o s (s.modEntry x f) :=
  s.modFar_list_moves (fun l => l.map _) (by simp)

theorem State.makeOffer_moves (s : State) (x : Seat) : Moves o s (s.makeOffer x) := by
  unfold State.makeOffer
  split
  · rename_i h hk
    exact ((((Relation.ReflTransGen.single (Move.alloc _ x _ _ s (State.freeChan_free h) (by simp) rfl rfl rfl
      fun d _ => State.freeSlot_exclusive hk d (by simp))).trans (State.setUpAudio_moves _ _)).trans
      (State.modEntry_moves _ _ _)).trans (State.place_moves _ _ _)).trans (State.notify_moves _ _)
  · exact .refl

theorem State.chanOf_busy {s : State} {x : Seat} {c : Fin 12} (h : s.chanOf x = some c) : (s.chan c).state ≠ .free := by
  have := List.find?_some h
  simp only [decide_eq_true_eq] at this
  exact this.1

theorem State.acceptOffer_moves (s : State) (x : Seat) : Moves o s (s.acceptOffer x) := by
  unfold State.acceptOffer
  refine (s.listRemove_moves x .opened).trans ?_
  dsimp only
  split
  · rename_i h
    exact (State.modChan_moves _ _ _ (State.chanOf_busy h) (by simp)).trans (State.placeOpen_moves _ _ _)
  · exact .refl

theorem State.promote_moves (s : State) (x : Seat) : Moves o s (s.promote x) :=
  .ite (s.makeOffer_moves x) ((s.allocate_moves x _).trans (State.listRemove_moves _ _ _))

theorem State.promoteIf_moves (s : State) (x : Seat) : Moves o s (s.promoteIf x) := .ite (s.promote_moves x) .refl

theorem State.runPromotion_moves (s : State) : Moves o s s.runPromotion := .ite .refl (.foldl _ State.promoteIf_moves _ _)

theorem State.settle_moves (s : State) : Moves o s s.settle :=
  .ite ((Relation.ReflTransGen.single (.far _ s rfl rfl (by simp))).trans (State.runPromotion_moves _)) .refl

/-- A close request on an OPEN or HELD channel leaves it CLOSING (R60). -/
theorem State.closeRequest_closing (s : State) (c : Fin 12) (cause : CloseCause)
    (h : (s.chan c).state = .opened ∨ (s.chan c).state = .held) : ((s.closeRequest c cause).chan c).state = .closing := by
  have e : ((s.enterClosing c cause).chan c).state = .closing := by
    unfold State.enterClosing
    dsimp only
    split <;> simp
  unfold State.closeRequest
  obtain h | h := h
  · rw [h]
    simpa using e
  · rw [h]
    simpa using e

theorem State.candidate_state {s : State} {x : Seat} {c : Fin 12} (h : s.candidate x = some c) :
    (s.chan c).state = .opened ∨ (s.chan c).state = .held := by
  have h1 := List.find?_some h
  simp only [State.isCandidate, Bool.and_eq_true, Bool.or_eq_true, decide_eq_true_eq] at h1
  exact h1.1.1.1.1

theorem State.replaceChan_moves (s : State) (c : Fin 12) (x : Seat) (h : (s.chan c).state = .opened ∨ (s.chan c).state = .held) :
    Moves o s (s.replaceChan c x) := by
  have hc := s.closeRequest_closing c .replaced h
  exact (s.closeRequest_moves c _).trans (State.modChan_moves _ _ _ (by simp [hc]) (by simp [hc]))

end Sys2Proof.Machine
end

