-- ==== Sys2Proof/Laws/Paths.lean ====
section
/-! SUPPORT. The operations of the priority hold, the timers, the trunks, the seat events, the hall link and MGE as paths of moves. -/

namespace Sys2Proof.Machine

variable {o : Bool}

/-! ### Priority hold and list control -/

/-- A change of FAR that leaves the channels, the open sequence and the list. -/
theorem State.modFar_moves (s : State) (f : Far → Far) (channels : (f s.far).channels = s.far.channels)
    (openSeq : (f s.far).openSeq = s.far.openSeq) (list : (f s.far).list = s.far.list) : Moves o s (s.modFar f) :=
  .single (.far f s channels openSeq (by simp [list]))

theorem State.recomputeHold_moves (s : State) : Moves o s s.recomputeHold := s.modFar_moves _ rfl rfl rfl

theorem State.notifyHold_moves (s : State) (x : Option Seat) (change : HoldChange) : Moves o s (s.notifyHold x change) := s.notify_moves _

theorem State.joinHold_moves (s : State) (x : Seat) : Moves o s (s.joinHold x) :=
  ((s.modFar_moves (fun f => { f with holdSet := seatInsert x f.holdSet }) rfl rfl rfl).trans (State.recomputeHold_moves _)).trans
    (State.notifyHold_moves _ _ _)

theorem State.leaveHold_moves (s : State) (x : Seat) : Moves o s (s.leaveHold x) :=
  .ite (((s.modFar_moves (fun f => { f with holdSet := f.holdSet.filter fun y => y ≠ x }) rfl rfl rfl).trans
    (State.recomputeHold_moves _)).trans (State.notifyHold_moves _ _ _)) .refl

theorem State.holdChannel_moves (s : State) (c : Fin 12) (h : (s.chan c).state ≠ .free) : Moves o s (s.holdChannel c) := by
  unfold State.holdChannel
  refine (s.modChan_moves c (fun ch => { ch with state := .held }) h (by simp)).trans ?_
  generalize s.modChan c (fun ch => { ch with state := .held }) = s1
  dsimp only
  split
  · exact ((s1.place_moves _ _).trans (State.abortWindow_moves _ _)).trans (State.notifyChan_moves _ _ _)
  · exact (s1.abortWindow_moves _).trans (State.notifyChan_moves _ _ _)

theorem State.riseAt_moves (s : State) (c : Fin 12) : Moves o s (s.riseAt c) := by
  unfold State.riseAt
  split
  · split
    · rename_i h
      split
      · exact s.holdChannel_moves _ (by simp [h])
      · exact s.closeRequest_moves _ _
    · split
      · exact .ite (s.place_moves _ _) .refl
      · exact .refl
    all_goals exact .refl
  · exact .refl

theorem State.rise_moves (s : State) : Moves o s s.rise := .foldl _ State.riseAt_moves _ _

theorem State.resume_moves (s : State) (c : Fin 12) (h : (s.chan c).state ≠ .free) : Moves o s (s.resume c) := by
  unfold State.resume
  refine (s.modChan_moves c (fun ch => { ch with state := .opened, reachedOpen := some true }) h (by simp)).trans ?_
  refine (State.startWindow_moves _ c).trans ?_
  refine (State.notifyChan_moves _ c fun x => .chResumed c x).trans ?_
  dsimp only
  split
  · exact State.countGrant_moves _ _
  · exact .refl

theorem State.placeUnmute_moves (s : State) (c : Fin 12) (x : Seat) (h : (s.chan c).state ≠ .free) : Moves o s (s.placeUnmute c x) := by
  unfold State.placeUnmute
  refine (s.placeReport_moves x .unmute).trans ?_
  dsimp only
  split
  · exact State.resume_moves _ _ (by simpa using h)
  · exact .refl

theorem State.fallAt_moves (s : State) (c : Fin 12) : Moves o s (s.fallAt c) := by
  unfold State.fallAt
  split
  · rename_i h _
    exact .ite .refl (s.placeUnmute_moves _ _ (by simp [h]))
  · exact .refl

theorem State.fall_moves (s : State) : Moves o s s.fall := (Moves.foldl _ State.fallAt_moves _ _).trans (State.trigger_moves _)

theorem State.holdChanged_moves (s : State) (before : Fin 8) : Moves o s (s.holdChanged before) :=
  .ite s.rise_moves (.ite s.fall_moves .refl)

theorem State.levelChanged_moves (s : State) : Moves o s s.levelChanged :=
  .ite .refl (s.recomputeHold_moves.trans (State.notifyHold_moves _ _ _))

theorem State.notifyList_moves (s : State) : Moves o s s.notifyList := s.notify_moves _

theorem State.clearHolder_moves (s : State) (x : Seat) : Moves o s (s.clearHolder x) :=
  .ite (((s.modFar_moves (fun f => { f with holder := none }) rfl rfl rfl).trans (State.notifyList_moves _)).trans
    (State.place_moves _ _ _)) .refl

theorem State.fallback_moves (s : State) : Moves o s s.fallback :=
  .ite ((s.modFar_moves (fun f => { f with claimed := false, forceReturn := false }) rfl rfl rfl).trans (State.notifyList_moves _)) .refl

theorem State.clearLost_moves (s : State) (x : Seat) : Moves o s (s.clearLost x) := by
  unfold State.clearLost
  refine Relation.ReflTransGen.trans ?_ ((State.leaveHold_moves _ x).trans (State.clearHolder_moves _ x))
  split
  · exact .refl
  · exact s.listRemove_moves _ _
  · exact s.endOffer_moves _ _ _ _
  · exact s.freeChannel_moves _ _
  · exact s.freeChannel_moves _ _
  · exact s.freeChannel_moves _ _
  · rename_i h
    exact s.endClose_moves _ (State.chanOf_busy h)
  all_goals first
    | exact .refl
    | exact s.dropSuccession_moves _

theorem State.clearBarred_moves (s : State) (x : Seat) : Moves o s (s.clearBarred x) := by
  unfold State.clearBarred
  refine Relation.ReflTransGen.trans ?_ ((State.leaveHold_moves _ x).trans (State.clearHolder_moves _ x))
  split
  all_goals first
    | exact .refl
    | exact s.listRemove_moves _ _
    | exact s.endOffer_moves _ _ _ _
    | exact s.closeRequest_moves _ _
    | exact s.dropSuccession_moves _

theorem State.clearChair_moves (s : State) (x : Seat) : Moves o s (s.clearChair x) :=
  (s.leaveHold_moves x).trans (State.clearHolder_moves _ x)

theorem State.loseSeat_moves (s : State) (x : Seat) : Moves o s (s.loseSeat x) := (s.clearLost_moves x).trans (State.holdChanged_moves _ _)

/-! ### Timers and the level monitor -/

theorem State.warnStep_moves (s : State) (c : Fin 12) : Moves o s (s.warnStep c) := by
  unfold State.warnStep
  split
  · exact .ite (((s.modSlm_moves _ _).trans (State.place_moves _ _ _)).trans (State.notify_moves _ _)) .refl
  · exact .refl

theorem State.expireStep_moves (s : State) (c : Fin 12) : Moves o s (s.expireStep c) := by
  unfold State.expireStep
  split
  · rename_i x _ _
    split
    · dsimp only
      have h : Moves o s (if (s.slmOf c).overrun then s
          else (State.setFlag .speakExpired (s.modSlm c fun m => { m with overrun := true })).notify
            (.expired c x (s.slmOf c).clock (s.allowanceOf x) (s.classOf x).action)) :=
        .ite .refl (((s.modSlm_moves _ _).trans (State.setFlag_moves _ _)).trans (State.notify_moves _ _))
      split
      · exact h
      · exact h.trans (State.closeRequest_moves _ _ _)
    · exact .refl
  · exact .refl

theorem State.comparison_moves (s : State) (c : Fin 12) : Moves o s (s.comparison c) :=
  (s.warnStep_moves c).trans (State.expireStep_moves _ _)

theorem State.tickClock_moves (s : State) (c : Fin 12) : Moves o s (s.tickClock c) :=
  .ite ((s.modSlm_moves _ _).trans (State.comparison_moves _ _)) .refl

theorem State.lapse_moves (s : State) (x : Seat) : Moves o s (s.lapse x) :=
  ((s.modMge_counts_moves (fun m => { m with lapsed := satAdd 65535 m.lapsed 1 }) rfl rfl rfl rfl rfl).trans
    (State.setFlag_moves _ _)).trans (State.endOffer_moves _ _ _ _ _)

theorem State.deadlines_moves (s : State) : Moves o s s.deadlines :=
  (s.modFar_list_moves lowerDeadlines (by simp [lowerDeadlines])).trans (Moves.foldl _ State.lapse_moves _ _)

theorem State.unattend_moves (s : State) : Moves o s s.unattend :=
  .ite (((Relation.ReflTransGen.single (.hli (fun h => { h with attended := false, silenceTimer := none }) s (by simp) (by simp))).trans
    (State.setFlag_moves _ _)).trans (State.fallback_moves _)) .refl

theorem State.silenceTick_moves (s : State) : Moves o s s.silenceTick := by
  unfold State.silenceTick
  refine (Relation.ReflTransGen.single
    (.hli (fun h => { h with silenceTimer := h.silenceTimer.map fun n => satAdd 255 n 1 }) s (by simp) (by simp))).trans ?_
  exact Moves.ite (State.unattend_moves _) .refl

theorem State.secondExpiry_moves (s : State) : Moves o s s.secondExpiry :=
  (Relation.ReflTransGen.single (.mge (fun m => { m with secondPhase := 0 }) s rfl rfl (.inl rfl) (.inl rfl) (.inr (by simp)))).trans
    (State.silenceTick_moves _)

theorem State.decisecondExpiry_moves (s : State) : Moves o s s.decisecondExpiry := by
  unfold State.decisecondExpiry
  refine (((Relation.ReflTransGen.single
    (.mge (fun m => { m with decisecondPhase := 0 }) s rfl rfl (.inl rfl) (.inr (by simp)) (.inl rfl))).trans
      (Moves.foldl _ State.tickClock_moves allChans _)).trans ((State.deadlines_moves _).trans (State.settle_moves _))).trans ?_
  dsimp only
  generalize State.settle _ = s1
  split
  · exact State.secondExpiry_moves _
  · rename_i h
    exact .single (.mge (fun m => { m with secondPhase := m.secondPhase + 1 }) s1 rfl rfl (.inl rfl) (.inl rfl) (.inr (not_le.mp h)))

theorem State.frameTick_moves (s : State) : Moves o s s.frameTick := by
  unfold State.frameTick
  split
  · exact s.decisecondExpiry_moves
  · rename_i h
    have h1 : s.mge.decisecondPhase + 1 < 1600 := not_le.mp h
    exact .single (.mge (fun m => { m with decisecondPhase := m.decisecondPhase + 1 }) s rfl rfl (.inl rfl) (.inr h1) (.inl rfl))

theorem State.silenceStep_moves (s : State) (c : Fin 12) : Moves o s (s.silenceStep c) := by
  unfold State.silenceStep
  split
  · exact .ite (s.closeRequest_moves _ _) .refl
  · exact .refl

theorem State.finishWindow_moves (s : State) (c : Fin 12) : Moves o s (s.finishWindow c) :=
  .ite (((s.modSlm_moves _ _).trans (State.silenceStep_moves _ _)).trans (Moves.ite (State.startWindow_moves _ _) .refl)) .refl

theorem State.handSlot_moves (s : State) (c : Fin 12) (x : Option (BitVec 16)) : Moves o s (s.handSlot c x) :=
  (s.modFmx_moves _ _).trans (State.modSlm_moves _ _ _)

theorem State.monitorChanged_moves (s : State) (on : Bool) : Moves o s (s.monitorChanged on) :=
  .foldl _ (fun a c => .ite (.ite (a.startWindow_moves c) .refl) (a.modSlm_moves c _)) _ _

theorem State.mixComputation_moves (s : State) : Moves o s s.mixComputation :=
  .ite ((Relation.ReflTransGen.single (.fmx _ s)).trans (State.setFlag_moves _ _)) (.single (.fmx _ s))

/-! ### Trunk ports -/

theorem State.endCensus_moves (s : State) (t : Fin 4) (outcome : CensusOutcome) : Moves o s (s.endCensus t outcome) :=
  ((s.modTpc_moves t (fun p => { p with censusRunning := false, censusOutcome := outcome }) rfl).trans (State.notify_moves _ _)).trans
    (State.trigger_moves _)

theorem State.probeSettled_moves (s : State) (t : Fin 4) (pos : Fin 120) : Moves o s (s.probeSettled t pos) := by
  unfold State.probeSettled
  refine (s.modTpc_moves t (fun p => { p with probed := min 120 (p.probed + 1) }) rfl).trans ?_
  exact Moves.ite ((State.setFlag_moves _ _).trans (State.endCensus_moves _ _ _)) .refl

theorem State.teardownChan_moves (s : State) (t : Fin 4) (c : Fin 12) : Moves o s (s.teardownChan t c) := by
  unfold State.teardownChan
  split
  · split
    · split
      · exact .refl
      · rename_i h
        exact s.endClose_moves _ (by simp [h])
      all_goals exact s.freeChannel_moves _ _
    · exact .refl
  · exact .refl

theorem State.teardownFloor_moves (s : State) (t : Fin 4) : Moves o s (s.teardownFloor t) := by
  unfold State.teardownFloor
  refine (Moves.foldl (State.teardownChan t) (fun a c => a.teardownChan_moves t c) allChans s).trans ?_
  generalize allChans.foldl (State.teardownChan t) s = s1
  dsimp only
  refine (Moves.foldl (fun a x => a.listRemove x .lost) (fun a x => a.listRemove_moves x _)
    ((s1.far.list.map Entry.seat).filter fun x => x.trunk = t) s1).trans ?_
  generalize List.foldl (fun a x => State.listRemove x .lost a) s1 _ = s2
  refine (Moves.foldl (fun a x => a.leaveHold x) (fun a x => a.leaveHold_moves x) (s2.far.holdSet.filter fun x => x.trunk = t) s2).trans ?_
  generalize List.foldl (fun a x => State.leaveHold x a) s2 _ = s3
  refine (s3.holdChanged_moves s2.far.holdLevel).trans ?_
  generalize s3.holdChanged s2.far.holdLevel = s4
  split
  · exact Moves.ite (s4.clearHolder_moves _) .refl
  · exact .refl

/-- A port update that leaves no more than two echoes. -/
theorem State.modTpc_echo_moves (s : State) (t : Fin 4) (f : Tpc → Tpc) (h : (f (s.tpc t)).echoes.length ≤ 2) : Moves o s (s.modTpc t f) :=
  .single (.tpc t f s (le_trans h (le_max_left _ _)))

theorem State.teardown_moves (s : State) (t : Fin 4) (link : LinkState) (lost : Bool) : Moves o s (s.teardown t link lost) := by
  unfold State.teardown
  refine (s.modTpc_echo_moves t (Tpc.enterOff link) (by simp [Tpc.enterOff])).trans ?_
  refine (State.teardownFloor_moves _ t).trans ?_
  generalize State.teardownFloor t _ = s1
  dsimp only
  refine (s1.modTpc_echo_moves t (fun p => { p with queue := [], inFlight := none, echoes := [] }) (by simp)).trans ?_
  generalize s1.modTpc t (fun p => { p with queue := [], inFlight := none, echoes := [] }) = s2
  refine (Moves.ite (P := (s2.tpc t).censusRunning) ((s2.setFlag_moves .censusFault).trans (State.endCensus_moves _ t .linkFault)) .refl).trans ?_
  generalize (if (s2.tpc t).censusRunning then (s2.setFlag .censusFault).endCensus t .linkFault else s2) = s3
  refine (Moves.ite (P := lost) ((s3.modTpc_moves t (fun p => { p with lostLinks := satAdd 255 p.lostLinks 1 }) rfl).trans
    (State.setFlag_moves _ .linkLost)) .refl).trans ?_
  exact State.notify_moves _ _

theorem State.trunkUp_moves (s : State) (t : Fin 4) : Moves o s (s.trunkUp t) := by
  unfold State.trunkUp
  exact (s.modTpc_moves t _ (by dsimp only; split <;> rfl)).trans (State.notify_moves _ _)

theorem State.trunkBad_moves (s : State) (t : Fin 4) : Moves o s (s.trunkBad t) := by
  unfold State.trunkBad
  split
  · exact .refl
  · exact .refl
  · exact .ite ((s.modTpc_echo_moves _ _ (by simp [Tpc.enterOff])).trans (State.notify_moves _ _))
      (s.modTpc_moves t (fun p => { p with goodRun := 0, badRun := p.badRun + 1 }) rfl)
  · exact .ite (s.teardown_moves _ _ _) (s.modTpc_moves t (fun p => { p with badRun := p.badRun + 1 }) rfl)

theorem State.openDone_moves (s : State) (c : Fin 12) (x : Seat) (h : (s.chan c).state ≠ .free) : Moves o s (s.openDone c x) := by
  unfold State.openDone
  refine (s.modSlm_moves c fun m => { m with clock := 0 }).trans ?_
  have h1 : ((s.modSlm c fun m => { m with clock := 0 }).chan c).state ≠ .free := h
  generalize s.modSlm c (fun m => { m with clock := 0 }) = s1 at *
  dsimp only
  split
  · exact ((((s1.modChan_moves c _ h1 (by simp)).trans (State.startWindow_moves _ _)).trans (State.countGrant_moves _ _)).trans
      (State.notify_moves _ _)).trans (State.comparison_moves _ _)
  · exact (((s1.modChan_moves c _ h1 (by simp)).trans (State.place_moves _ _ _)).trans (State.notify_moves _ _)).trans
      (State.notify_moves _ _)
  · exact ((s1.modChan_moves c _ h1 (by simp)).trans (State.notify_moves _ _)).trans (State.notify_moves _ _)
  · exact (((s1.modChan_moves c _ h1 (by simp)).trans (State.notify_moves _ _)).trans (State.notify_moves _ _)).trans
      (State.placeUnmute_moves _ _ _ (by simp))

theorem State.openCompleted_moves (s : State) (x : Seat) (r : AckResult) : Moves o s (s.openCompleted x r) := by
  unfold State.openCompleted
  split
  · split
    · rename_i h
      exact s.openDone_moves _ _ (by simp [h])
    · exact s.freeChannel_moves _ _
    all_goals exact .refl
  · exact .refl

theorem State.muteCompleted_moves (s : State) (x : Seat) (r : AckResult) : Moves o s (s.muteCompleted x r) := by
  unfold State.muteCompleted
  split
  · split
    · exact s.closeRequest_moves _ _
    all_goals exact .refl
  · exact .refl

theorem State.unmuteCompleted_moves (s : State) (x : Seat) (r : AckResult) : Moves o s (s.unmuteCompleted x r) := by
  unfold State.unmuteCompleted
  split
  · split
    · exact s.closeRequest_moves _ _
    · rename_i h
      exact .ite (s.place_moves _ _) (s.resume_moves _ (by simp [h]))
    all_goals exact .refl
  · exact .refl

theorem State.closeCompleted_moves (s : State) (x : Seat) : Moves o s (s.closeCompleted x) := by
  unfold State.closeCompleted
  split
  · split
    · rename_i h
      exact s.endClose_moves _ (by simp [h])
    all_goals exact .refl
  · exact .refl

theorem State.offerCompleted_moves (s : State) (x : Seat) (r : AckResult) : Moves o s (s.offerCompleted x r) := by
  unfold State.offerCompleted
  split
  · split
    · exact s.modEntry_moves _ _
    · exact s.endOffer_moves _ _ _ _
    all_goals exact .refl
  · exact .refl

theorem State.probeAnswer_moves (s : State) (x : Seat) (d : Byte) : Moves o s (s.probeAnswer x d) := by
  unfold State.probeAnswer
  refine (s.setAvailability_moves x .present).trans ?_
  refine (State.modSeat_moves _ x (fun r => { r with confirmKey := some (d.getLsbD 0) }) rfl).trans ?_
  exact (State.modTpc_moves _ x.trunk (fun p => { p with presentCount := min 120 (p.presentCount + 1) }) rfl).trans
    (State.probeSettled_moves _ _ _)

theorem State.probeUnanswered_moves (s : State) (x : Seat) : Moves o s (s.probeUnanswered x) := by
  unfold State.probeUnanswered
  refine Relation.ReflTransGen.trans ?_ (State.probeSettled_moves _ _ _)
  exact Moves.ite .refl (((s.setAvailability_moves _ _).trans (State.discardUnsent_moves _ _)).trans (State.loseSeat_moves _ _))

theorem State.completed_moves (s : State) (x : Seat) (cmd : Cmd) (r : AckResult) (d : Byte) : Moves o s (s.completed x cmd r d) := by
  unfold State.completed
  split
  · exact s.openCompleted_moves _ _
  · exact s.muteCompleted_moves _ _
  · exact s.unmuteCompleted_moves _ _
  · exact s.closeCompleted_moves _
  · exact s.offerCompleted_moves _ _
  · exact s.probeAnswer_moves _ _
  all_goals exact .refl

theorem State.endDelivery_moves (s : State) (t : Fin 4) : Moves o s (s.endDelivery t) := s.modTpc_moves t (fun p => { p with inFlight := none }) rfl

theorem State.deliveryFailed_moves (s : State) (x : Seat) : Moves o s (s.deliveryFailed x) := by
  unfold State.deliveryFailed
  refine (s.endDelivery_moves x.trunk).trans ?_
  refine (State.modTpc_moves _ x.trunk (fun p => { p with cmdFailures := satAdd 255 p.cmdFailures 1 }) rfl).trans ?_
  exact (((State.setAvailability_moves _ _ _).trans (State.setFlag_moves _ _)).trans (State.discardUnsent_moves _ _)).trans
    (State.loseSeat_moves _ _)

theorem State.attemptFailed_moves (s : State) (t : Fin 4) (f : InFlight) : Moves o s (s.attemptFailed t f) :=
  .ite ((s.endDelivery_moves t).trans (State.probeUnanswered_moves _ _))
    (.ite (s.modTpc_moves t (fun p => { p with inFlight := some { f with status := .retry } }) rfl) (s.deliveryFailed_moves _))

theorem State.settleAttempt_moves (s : State) (t : Fin 4) (n : Byte) (ack : Option UpAck) : Moves o s (s.settleAttempt t n ack) := by
  unfold State.settleAttempt
  split
  · refine .ite .refl (.ite ?_ (.ite (s.attemptFailed_moves _ _) .refl))
    split
    · exact .ite ((s.endDelivery_moves t).trans (State.completed_moves _ _ _ _ _)) (s.attemptFailed_moves _ _)
    · exact s.attemptFailed_moves _ _
  · exact .refl

theorem State.takeSlots_moves (s : State) (t : Fin 4) (frame : List Byte) : Moves o s (s.takeSlots t frame) := by
  unfold State.takeSlots
  refine (Moves.foldl _ (fun a k => ?_) allSlots s).trans (Moves.foldl _ (fun a c => .ite (a.finishWindow_moves c) .refl) _ _)
  split
  · exact a.handSlot_moves _ _
  · exact .refl

theorem Tpc.arbitrate_echoes (p : Tpc) : p.arbitrate.2.echoes = p.echoes := by
  unfold Tpc.arbitrate
  split
  · split <;> rfl
  · split
    · split <;> rfl
    · split <;> rfl

theorem Tpc.sendFrame_echoes (p : Tpc) (mix : Int) : (p.sendFrame mix).2.echoes.length ≤ max 2 p.echoes.length := by
  unfold Tpc.sendFrame
  split
  · simp
  · simp [Tpc.advance]

theorem State.sendTrunk_moves (s : State) (t : Fin 4) : Moves true s (s.sendTrunk t) := by
  unfold State.sendTrunk
  split
  · exact .refl
  · refine (Relation.ReflTransGen.single (.tpc t (fun _ => ((s.tpc t).sendFrame s.fmx.mixSample).2) s (Tpc.sendFrame_echoes _ _))).trans ?_
    refine (Relation.ReflTransGen.single (.trunkOut (vset s.trunkOut t (some ((s.tpc t).sendFrame s.fmx.mixSample).1)) _)).trans ?_
    dsimp only
    split
    · exact State.attemptFailed_moves _ _ _
    · exact .refl

/-! ### Seat events -/

theorem State.denyRequest_moves (s : State) (x : Seat) : Moves o s (s.denyRequest x) :=
  (s.place_moves _ _).trans (State.modMge_counts_moves _ (fun m => { m with refused := satAdd 65535 m.refused 1 }) rfl rfl rfl rfl rfl)

theorem State.replaceOr_moves (s : State) (x : Seat) (f : State → State) (hf : Moves o s (f s)) : Moves o s (s.replaceOr x f) := by
  unfold State.replaceOr
  split
  · rename_i h
    exact s.replaceChan_moves _ _ (State.candidate_state h)
  · exact hf

theorem State.directRequest_moves (s : State) (x : Seat) : Moves o s (s.directRequest x) := by
  unfold State.directRequest
  have h : Moves o s (s.insertRequest x .seat) := s.insertRequest_moves x .seat
  refine .ite h (.ite (.ite h (s.allocate_moves _ _)) ?_)
  split
  · exact h
  · exact s.denyRequest_moves _
  · exact .ite h (s.replaceOr_moves _ _ h)

theorem State.chairBypass_moves (s : State) (x : Seat) : Moves o s (s.chairBypass x) := by
  unfold State.chairBypass
  have h : Moves o s (s.insertRequest x .chairBypass) := s.insertRequest_moves x .chairBypass
  exact .ite h (.ite (s.allocate_moves _ _) (s.replaceOr_moves _ _ h))

theorem State.newRequest_moves (s : State) (x : Seat) : Moves o s (s.newRequest x) := by
  unfold State.newRequest
  refine .ite (s.place_moves _ _) ?_
  split
  · exact s.place_moves _ _
  · exact s.chairBypass_moves _
  · split
    · exact s.directRequest_moves _
    all_goals exact s.insertRequest_moves _ _

theorem State.closeSeat_moves (s : State) (x : Seat) (cause : CloseCause) : Moves o s (s.closeSeat x cause) := by
  unfold State.closeSeat
  split
  · exact s.closeRequest_moves _ _
  · exact .refl

theorem State.micPressed_moves (s : State) (arg : Byte) (x : Seat) : Moves o s (s.micPressed arg x) := by
  unfold State.micPressed
  split
  · exact .ite (s.place_moves _ _) (s.newRequest_moves _)
  · exact .ite (s.listRemove_moves _ _) .refl
  · exact .ite (s.endOffer_moves _ _ _ _) (s.acceptOffer_moves _)
  · exact s.closeSeat_moves _ _
  · exact s.closeSeat_moves _ _
  · exact s.closeSeat_moves _ _
  · exact .refl
  · exact s.dropSuccession_moves _

theorem State.confirmed_moves (s : State) (x : Seat) : Moves o s (s.confirmed x) := by
  unfold State.confirmed
  split
  · exact s.place_moves _ _
  · exact s.acceptOffer_moves _
  all_goals exact .refl

theorem State.priorityPressed_moves (s : State) (x : Seat) : Moves o s (s.priorityPressed x) := by
  unfold State.priorityPressed
  refine .ite .refl ?_
  refine (s.joinHold_moves x).trans ?_
  generalize s.joinHold x = s1
  dsimp only
  refine (Moves.ite (P := s1.floorState x = .idle) (s1.chairBypass_moves x) .refl).trans ?_
  exact Moves.ite (State.rise_moves _) .refl

theorem State.priorityReleased_moves (s : State) (x : Seat) : Moves o s (s.priorityReleased x) :=
  (s.leaveHold_moves x).trans (State.holdChanged_moves _ _)

theorem State.promoteNext_moves (s : State) : Moves o s s.promoteNext := by
  unfold State.promoteNext
  split
  · exact s.promote_moves _
  · exact .refl

theorem State.clearEntry_moves (s : State) (x : Seat) : Moves o s (s.clearEntry x) := by
  unfold State.clearEntry
  split
  · split
    · exact s.listRemove_moves _ _
    · exact s.endOffer_moves _ _ _ _
  · exact .refl

theorem State.clearWholeList_moves (s : State) : Moves o s s.clearWholeList := .foldl _ State.clearEntry_moves _ _

theorem State.listTaken_moves (s : State) (x : Seat) : Moves o s (s.listTaken x) :=
  .ite (s.place_moves _ _) (.ite (s.place_moves _ _)
    (.ite (((s.modFar_moves (fun f => { f with holder := some x }) rfl rfl rfl).trans (State.place_moves _ _ _)).trans
      (State.notifyList_moves _)) (s.place_moves _ _)))

theorem State.helloFloor_moves (s : State) (x : Seat) : Moves o s (s.helloFloor x) := by
  unfold State.helloFloor
  split
  · exact .refl
  · exact .refl
  · exact s.listRemove_moves _ _
  · exact s.endOffer_moves _ _ _ _
  · exact s.closeSeat_moves _ _
  · exact s.closeSeat_moves _ _
  · exact s.closeSeat_moves _ _
  · exact s.dropSuccession_moves _

theorem State.helloed_moves (s : State) (arg : Byte) (b : Bool) (x : Seat) : Moves o s (s.helloed arg b x) := by
  unfold State.helloed
  refine (s.modSeat_moves x (fun r => { r with confirmKey := some (arg.getLsbD 0) }) rfl).trans ?_
  exact Moves.ite (((State.helloFloor_moves _ x).trans (State.priorityReleased_moves _ x)).trans (State.clearHolder_moves _ x)) .refl

theorem State.chairEvent_moves (s : State) (x : Seat) (f : State → State) (hf : Moves o s (f s)) : Moves o s (s.chairEvent x f) :=
  .ite hf (s.setFlag_moves _)

theorem State.dispatch_moves (s : State) (k : Option EventKind) (arg : Byte) (b : Bool) (x : Seat) : Moves o s (s.dispatch k arg b x) := by
  unfold State.dispatch
  split
  · exact s.helloed_moves _ _ _
  · exact s.micPressed_moves _ _
  · exact s.confirmed_moves _
  · exact s.chairEvent_moves _ _ (s.priorityPressed_moves _)
  · exact s.chairEvent_moves _ _ (s.priorityReleased_moves _)
  · exact s.chairEvent_moves _ _ (.ite s.promoteNext_moves (s.place_moves _ _))
  · exact s.chairEvent_moves _ _ (.ite s.clearWholeList_moves (s.place_moves _ _))
  · exact s.chairEvent_moves _ _ (s.listTaken_moves _)
  · exact s.chairEvent_moves _ _ (s.clearHolder_moves _)
  · exact s.setFlag_moves _

theorem addEcho_length (e : Echo) (l : List Echo) : (addEcho e l).length ≤ 2 := by
  simp only [addEcho, List.length_drop, List.length_append, List.length_cons, List.length_nil]; omega

theorem State.takeEvent_moves (s : State) (t : Fin 4) (pos : Fin 128) (serial : Fin 16) (k : Option EventKind) (arg : Byte) :
    Moves o s (s.takeEvent t pos serial k arg) := by
  unfold State.takeEvent
  split
  · exact s.setFlag_moves _
  · rename_i x _
    refine (s.modTpc_echo_moves x.trunk (fun p => { p with echoes := addEcho ⟨x.pos, serial⟩ p.echoes }) (addEcho_length _ _)).trans ?_
    refine Moves.ite .refl ?_
    refine (State.setAvailability_moves _ x .present).trans ?_
    refine (State.modSeat_moves _ x (fun r => { r with lastSerial := some serial }) rfl).trans ?_
    exact (State.dispatch_moves _ _ _ _ _).trans (State.settle_moves _)

theorem State.seatEvent_moves (s : State) (t : Fin 4) (pos : Fin 128) (serial : Fin 16) (k : EventKind) (arg : Byte) :
    Moves o s (s.seatEvent t pos serial k arg) := .ite (s.takeEvent_moves _ _ _ _ _) .refl

theorem State.takeUpEvent_moves (s : State) (t : Fin 4) (e : Option UpEvent) : Moves o s (s.takeUpEvent t e) := by
  unfold State.takeUpEvent
  split
  · exact s.takeEvent_moves _ _ _ _ _
  · exact .refl

theorem State.takeContents_moves (s : State) (t : Fin 4) (frame : List Byte) : Moves o s (s.takeContents t frame) :=
  ((s.takeUpEvent_moves t _).trans (State.takeUpEvent_moves _ t _)).trans
    (((State.settleAttempt_moves _ _ _ _).trans (State.settle_moves _)).trans ((State.takeSlots_moves _ _ _).trans (State.settle_moves _)))

theorem State.trunkGood_moves (s : State) (t : Fin 4) (frame : List Byte) : Moves o s (s.trunkGood t frame) := by
  unfold State.trunkGood
  have h : Moves o s (s.modTpc t fun p => { p with lastAnswered := some (upAnswered frame) }) := s.modTpc_moves t _ rfl
  split
  · exact .refl
  · exact (h.trans (State.modTpc_moves _ t _ rfl)).trans (State.notify_moves _ _)
  · exact .ite (h.trans (State.trunkUp_moves _ _)) (h.trans (State.modTpc_moves _ t _ rfl))
  · exact (h.trans (State.modTpc_moves _ t _ rfl)).trans (State.takeContents_moves _ _ _)

theorem State.receiveTrunk_moves (s : State) (t : Fin 4) (frame : List Byte) : Moves o s (s.receiveTrunk t frame) :=
  .ite (s.trunkGood_moves _ _) ((s.trunkBad_moves _).trans (State.settle_moves _))

theorem State.takeAck_moves (s : State) (x : Seat) (m : Cmd → Bool) (r : AckResult) (d : Byte) : Moves o s (s.takeAck x m r d) := by
  unfold State.takeAck
  split
  · exact .ite (((s.endDelivery_moves _).trans (State.completed_moves _ _ _ _ _)).trans (State.settle_moves _)) .refl
  · exact .refl

/-! ### The hall link -/

/-- A change of HLI that queues neither a reply nor a notice. -/
theorem State.modHli_moves (s : State) (f : Hli → Hli) (replies : (f s.hli).replyQueue = s.hli.replyQueue)
    (notices : (f s.hli).noticeQueue = s.hli.noticeQueue) : Moves o s (s.modHli f) :=
  .single (.hli f s replies notices)

theorem State.breakAssembly_moves (s : State) : Moves o s s.breakAssembly :=
  .ite ((s.modHli_moves (fun h => { h with assembly := none }) rfl rfl).trans (State.setFlag_moves _ _)) .refl

theorem State.endBatch_moves (s : State) : Moves o s s.endBatch :=
  (Relation.ReflTransGen.single (.mge (fun m => { m with batch := none }) s rfl rfl (.inr (by simp)) (.inl rfl) (.inl rfl))).trans
    (State.settle_moves _)

theorem State.endOwnBatch_moves (s : State) : Moves o s s.endOwnBatch := .ite s.endBatch_moves .refl

theorem State.takePlace_moves (s : State) (p : Place) (room : s.hli.replyQueue.length < 4) : Moves true s (s.takePlace p) := by
  have h : ∀ o, Moves o s (if p.ready then s else s.endOwnBatch) := fun _ => .ite .refl s.endOwnBatch_moves
  refine (h true).trans (.single (.queues (fun h => { h with replyQueue := h.replyQueue ++ [p] }) _ ?_ le_rfl))
  rw [show (if p.ready then s else s.endOwnBatch).hli.replyQueue = s.hli.replyQueue from (h false).frame.1]
  simp only [List.length_append, List.length_cons, List.length_nil]
  exact le_trans room (le_max_left _ _)

theorem State.acceptPacket_moves (s : State) (p : List Byte) : Moves true s (s.acceptPacket p) :=
  .ite ((s.modHli_moves (fun h => { h with attended := true, silenceTimer := some 0 }) rfl rfl).trans
    (by
      dsimp only
      split
      · rename_i h; exact State.takePlace_moves _ _ h
      · exact State.setFlag_moves _ _)) (s.setFlag_moves _)

theorem State.assembled_moves (s : State) (b : List Byte) : Moves true s (s.assembled b) := by
  unfold State.assembled
  have h : Moves true s (s.modHli fun h => { h with assembly := none }) := s.modHli_moves _ rfl rfl
  have h' : Moves true s (s.modHli fun h => { h with assembly := some b }) := s.modHli_moves _ rfl rfl
  exact .ite h' (.ite (h.trans (State.setFlag_moves _ _)) (.ite (h.trans (State.acceptPacket_moves _ _)) h'))

theorem State.takeLane_moves (s : State) (frame : List Byte) : Moves true s (s.takeLane frame) := by
  unfold State.takeLane
  refine .ite .refl (.ite (s.breakAssembly_moves.trans (State.assembled_moves _ _)) ?_)
  split
  · exact s.assembled_moves _
  · exact .refl

theorem State.abandonLane_moves (s : State) : Moves o s s.abandonLane := by
  unfold State.abandonLane
  refine (s.modHli_moves (fun h => { h with laneSender := none }) rfl rfl).trans ?_
  dsimp only
  split
  · rename_i count _ _ _
    exact (State.modMge_counts_moves _ (fun m => { m with noticesLost := satAdd 255 m.noticesLost count }) rfl rfl rfl rfl rfl).trans
      (State.setFlag_moves _ _)
  all_goals exact .refl

theorem State.hallLost_moves (s : State) : Moves o s s.hallLost :=
  ((s.modHli_moves (fun h => { h with link := .down, lastFrame := none, badRun := Config.badRunLimit }) rfl rfl).trans
    (State.abandonLane_moves _)).trans (State.unattend_moves _)

theorem State.hallValid_moves (s : State) (frame : List Byte) : Moves true s (s.hallValid frame) := by
  unfold State.hallValid
  dsimp only
  split
  · exact s.modHli_moves _ rfl rfl
  · exact .ite (s.modHli_moves _ rfl rfl) (s.modHli_moves _ rfl rfl)
  · refine Relation.ReflTransGen.trans ?_ ((State.modHli_moves _ _ rfl rfl).trans (State.takeLane_moves _ _))
    exact Moves.ite .refl (s.breakAssembly_moves)

theorem State.hallBad_moves (s : State) : Moves o s s.hallBad := by
  unfold State.hallBad
  split
  · exact .refl
  · exact .ite (s.modHli_moves _ rfl rfl) (s.modHli_moves _ rfl rfl)
  · exact .ite (s.breakAssembly_moves.trans (State.hallLost_moves _)) (s.breakAssembly_moves.trans (State.modHli_moves _ _ rfl rfl))

theorem State.receiveHall_moves (s : State) (frame : List Byte) : Moves true s (s.receiveHall frame) :=
  .ite (s.hallValid_moves _) s.hallBad_moves

theorem Hli.beginPacket_queues (h : Hli) :
    h.beginPacket.replyQueue = h.replyQueue ∧ h.beginPacket.noticeQueue.length ≤ h.noticeQueue.length := by
  unfold Hli.beginPacket
  split
  · split <;> simp
  · split <;> simp

theorem Hli.laneNow_queues (h : Hli) : h.laneNow.replyQueue = h.replyQueue ∧ h.laneNow.noticeQueue.length ≤ h.noticeQueue.length := by
  unfold Hli.laneNow Hli.readyLane
  split
  · split
    · simp
    · exact h.beginPacket_queues
  · simp

theorem Hli.sentLane_queues (h : Hli) : h.sentLane.replyQueue.length ≤ h.replyQueue.length ∧ h.sentLane.noticeQueue = h.noticeQueue := by
  unfold Hli.sentLane
  split
  · split
    · split
      · exact ⟨List.length_eraseIdx_le .., rfl⟩
      · simp
    · simp
  · simp

theorem Hli.afterFrame_queues (h : Hli) :
    h.afterFrame.replyQueue.length ≤ h.replyQueue.length ∧ h.afterFrame.noticeQueue = h.noticeQueue := by
  unfold Hli.afterFrame
  dsimp only
  split
  · exact h.sentLane_queues
  · simp

theorem State.sendHall_moves (s : State) : Moves true s s.sendHall := by
  have h1 := s.hli.laneNow_queues
  have h2 := s.hli.laneNow.afterFrame_queues
  refine (Relation.ReflTransGen.single (.queues (fun h => h.laneNow.afterFrame) s ?_ ?_)).trans (.single (.hallOut _ _))
  · exact le_trans (h2.1.trans (by rw [h1.1])) (le_max_right _ _)
  · rw [h2.2]; exact h1.2

/-! ### MGE -/

theorem modNextPlace_length (f : Place → Place) (q : List Place) : (modNextPlace f q).length = q.length := by
  induction q with
  | nil => rfl
  | cons p q ih => unfold modNextPlace; split <;> simp [ih]

theorem State.replied_moves (s : State) (r : ReplyRecord) (b : Bool) : Moves true s (s.replied r b) :=
  .ite ((Relation.ReflTransGen.single (.reply r s)).trans (.single (.queues _ _ (by simp [modNextPlace_length]) (by simp))))
    (.single (.reply r s))

theorem State.countBatch_moves (s : State) (a b : Bool) : Moves o s (s.countBatch a b) := by
  unfold State.countBatch
  split
  · exact .refl
  · rename_i n h
    refine Moves.ite s.endBatch_moves ?_
    refine .single (.mge (fun m => { m with batch := some (if a then n - 1 else n) }) s rfl rfl (.inr fun k hk => ?_) (.inl rfl) (.inl rfl))
    simp only [Option.some.injEq] at hk
    rw [h]
    refine le_trans ?_ (le_max_right _ _)
    show k ≤ n
    split at hk <;> omega

theorem State.answerBadLength_moves (s : State) (k : Byte) : Moves true s (s.answerBadLength k) :=
  (s.replied_moves _ _).trans (State.countBatch_moves _ _ _)

/-- A record whose body is a path is a path. -/
theorem State.runRecord_moves (s : State) (i : Instr) (k : Byte) (body : State → Answer) (h : Moves true s (body s).state) :
    Moves true s (s.runRecord i k body) :=
  .ite (h.trans ((State.replied_moves _ _ _).trans (State.countBatch_moves _ _ _))) .refl

end Sys2Proof.Machine
end

