-- ==== Sys2Proof/Laws/Changes.lean ====
section
/-! SUPPORT. Everything a command can do, said once: `Change` lists the eight shapes of a command's effect, and every command that answers
a next state has one of them. An invariant of `step` follows from its keeping by `Move` and by the few updates named here. -/

namespace Sys2Proof.Machine

/-- The effect of one command. -/
inductive Change (s : State) : State → Prop where
  | path {t : State} (moves : Moves true s t) : Change s t
  | reset (cause : ResetCause) (holdMs : Nat) : Change s (s.resetKeepingQueue cause holdMs)
  | holdEnd (held : s.running = false) : Change s s.endHold
  | seating {t : State} (stb : Stb) (locked : s.mge.sittingOpen = true → stb.sameSeating s.stb)
      (chairs : stb.chairCount ≤ max 8 s.stb.chairCount) (moves : Moves true (s.setStb stb) t) : Change s t
  | settings {t : State} (p : SetFloorParams) (moves : Moves true (s.modMge fun m => { m with settings := p.apply s.mge.settings }) t) : Change s t
  | opened {t : State} (closed : s.mge.sittingOpen = false) (moves : Moves true (s.zeroCounts.modMge fun m => { m with sittingOpen := true }) t) :
      Change s t
  | closed {m t : State} (before : Moves true s m) (after : Moves true (m.modMge fun g => { g with sittingOpen := false }) t) : Change s t
  | engine {m : State} (before : Moves true s m) : Change s m.engineReset

variable {o : Bool}

/-! ### Wrappers of records -/

theorem onSeat_moves {s : State} {code : BitVec 16} {body : Seat → State → Answer} (h : ∀ x, Moves o s (body x s).state) :
    Moves o s (onSeat code body s).state := by
  unfold onSeat
  split
  · exact .refl
  · exact h _

theorem onTrunk_moves {s : State} {trunk : Byte} {body : Fin 4 → State → Answer} (h : ∀ t, Moves o s (body t s).state) :
    Moves o s (onTrunk trunk body s).state := by
  unfold onTrunk
  split
  · exact .refl
  · exact h _

theorem gated_moves {s : State} {body : State → Answer} (h : Moves o s (body s).state) : Moves o s (gated body s).state := by
  unfold gated
  split
  · exact .refl
  · exact h

/-- An answer by cases. -/
theorem answer_ite_moves {P : Prop} [Decidable P] {s : State} {a b : Answer} (ha : Moves o s a.state) (hb : Moves o s b.state) :
    Moves o s (if P then a else b).state := by
  split <;> assumption

theorem refuse_moves (s : State) (status : Status) : Moves o s (Answer.refuse status s).state := .refl

/-! ### Bodies of records -/

theorem readListBody_moves (s : State) (a b : Byte) : Moves o s (readListBody a b s).state := answer_ite_moves .refl .refl

theorem readZoneBody_moves (s : State) (z : Byte) : Moves o s (readZoneBody z s).state := by
  unfold readZoneBody
  split
  · exact .refl
  · exact answer_ite_moves .refl .refl

theorem readClassBody_moves (s : State) (z : Byte) : Moves o s (readClassBody z s).state := by
  unfold readClassBody
  split <;> exact .refl

theorem censusTrunk_moves (s : State) (t : Fin 4) : Moves o s (censusTrunk t s).state :=
  answer_ite_moves .refl (answer_ite_moves .refl (answer_ite_moves .refl (s.modTpc_moves t _ rfl)))

theorem abortTrunk_moves (s : State) (t : Fin 4) : Moves o s (abortTrunk t s).state := by
  unfold abortTrunk
  refine answer_ite_moves ?_ .refl
  refine ((s.modTpc_moves t Tpc.dropProbe ?_).trans (State.endCensus_moves _ _ _)).trans (State.settle_moves _)
  unfold Tpc.dropProbe
  split
  · split <;> rfl
  · rfl

theorem holdTrunkBody_moves (s : State) (t : Fin 4) : Moves o s (holdTrunkBody t s).state :=
  answer_ite_moves .refl ((s.teardown_moves _ _ _).trans (State.settle_moves _))

theorem releaseTrunkBody_moves (s : State) (t : Fin 4) : Moves o s (releaseTrunkBody t s).state :=
  answer_ite_moves ((s.modTpc_echo_moves _ _ (by simp [Tpc.enterOff])).trans (State.notify_moves _ _)) .refl

theorem State.closeNamed_moves (s : State) (x : Seat) : Moves o s (s.closeNamed x) := by
  unfold State.closeNamed
  split
  all_goals first
    | exact .refl
    | exact s.closeSeat_moves _ _
    | exact s.dropSuccession_moves _

theorem closeSeatBody_moves (s : State) (x : Seat) : Moves o s (closeSeatBody x s).state :=
  answer_ite_moves .refl ((s.closeNamed_moves x).trans (State.settle_moves _))

theorem State.closeEach_moves (s : State) (removal : RemovalCause) (cause : CloseCause) (c : Fin 12) :
    Moves o s (s.closeEach removal cause c) := by
  unfold State.closeEach
  split
  all_goals first
    | exact .refl
    | exact s.endOffer_moves _ _ _ _
    | exact s.closeRequest_moves _ _
    | exact s.dropSuccessor_moves _

theorem closeAllBody_moves (s : State) : Moves o s (closeAllBody s).state :=
  (Moves.foldl _ (fun a c => a.closeEach_moves _ _ c) _ _).trans (State.settle_moves _)

theorem insertSeatBody_moves (s : State) (index : Byte) (x : Seat) : Moves o s (insertSeatBody index x s).state := by
  unfold insertSeatBody
  refine answer_ite_moves .refl (answer_ite_moves .refl ?_)
  split
  · exact s.setFlag_moves _
  · rename_i h
    exact (s.insertAt_moves _ _ _ (not_le.mp h)).trans (State.settle_moves _)

theorem cancelSeatBody_moves (s : State) (x : Seat) : Moves o s (cancelSeatBody x s).state := by
  unfold cancelSeatBody
  split
  · refine Relation.ReflTransGen.trans ?_ (State.settle_moves _)
    split
    · exact s.listRemove_moves _ _
    · exact s.endOffer_moves _ _ _ _
  · exact .refl

theorem nextBody_moves (s : State) : Moves o s (nextBody s).state := by
  unfold nextBody
  split
  · exact (s.promote_moves _).trans (State.settle_moves _)
  · exact .refl

theorem grantBody_moves (s : State) (x : Seat) : Moves o s (grantBody x s).state :=
  answer_ite_moves .refl (answer_ite_moves .refl (answer_ite_moves .refl
    (((s.listRemove_moves _ _).trans (State.allocate_moves _ _ _)).trans (State.settle_moves _))))

theorem State.setClaim_moves (s : State) (b : Bool) : Moves o s (s.setClaim b) :=
  .ite .refl ((s.modFar_moves (fun f => { f with claimed := b }) rfl rfl rfl).trans (State.notifyList_moves _))

theorem forceListBody_moves (s : State) (b : Byte) : Moves o s (forceListBody b s).state := by
  unfold forceListBody
  split
  · exact .refl
  · show Moves o s s.forceOn
    unfold State.forceOn
    refine (s.modFar_moves (fun f => { f with forceReturn := true, holder := none }) rfl rfl rfl).trans ?_
    dsimp only
    split
    · exact (State.place_moves _ _ _).trans (State.notifyList_moves _)
    · exact Moves.ite .refl (State.notifyList_moves _)
  · exact .ite ((s.modFar_moves (fun f => { f with forceReturn := false }) rfl rfl rfl).trans (State.notifyList_moves _)) .refl

theorem batchBody_moves (s : State) (n : Byte) : Moves o s (batchBody n s).state := by
  unfold batchBody
  refine answer_ite_moves .refl (answer_ite_moves .refl ?_)
  refine .single (.mge (fun m => { m with batch := some (min 7 n.toNat) }) s rfl rfl (.inr fun k hk => ?_) (.inl rfl) (.inl rfl))
  simp only [Option.some.injEq] at hk
  omega

theorem setNoticesBody_moves (s : State) (v : Vector Byte 14) : Moves o s (setNoticesBody v s).state := by
  unfold setNoticesBody
  split
  · exact .refl
  · rename_i w _
    exact s.modHli_moves (fun h => { h with noticeMask := w }) rfl rfl

theorem setReportBody_moves (s : State) (v : Vector Byte 14) : Moves o s (setReportBody v s).state := by
  unfold setReportBody
  split
  · exact .refl
  · rename_i w _
    exact s.modMge_counts_moves (fun m => { m with reportMask := w }) rfl rfl rfl rfl rfl

/-- A change of every port that keeps the echoes. -/
theorem Moves.mapTrunks (s : State) (f : Tpc → Tpc) (h : ∀ p, (f p).echoes = p.echoes) : Moves o s { s with trunks := s.trunks.map f } := by
  have step : ∀ (a : State) (t : Fin 4), Moves o a (a.modTpc t f) := fun a t => a.modTpc_moves t f (h _)
  have e : ({ s with trunks := s.trunks.map f } : State) = (((s.modTpc 0 f).modTpc 1 f).modTpc 2 f).modTpc 3 f := by
    simp only [State.modTpc, State.tpc, State.mk.injEq, true_and, and_true]
    apply vget_ext
    intro i
    fin_cases i <;> simp
  rw [e]
  exact (((step s 0).trans (step _ 1)).trans (step _ 2)).trans (step _ 3)

theorem clearStatusBody_moves (s : State) (mask : BitVec 16) : Moves o s (clearStatusBody mask s).state := by
  unfold clearStatusBody State.clearCounters
  refine Relation.ReflTransGen.trans ?_ (State.modMge_counts_moves _ (fun m => { m with flags := flagsClear mask m.flags }) rfl rfl rfl rfl rfl)
  dsimp only
  refine (Moves.ite (P := maskNames mask .noticeLost)
    (s.modMge_counts_moves (fun m => { m with noticesLost := 0 }) rfl rfl rfl rfl rfl) .refl).trans ?_
  generalize (if maskNames mask .noticeLost then s.modMge fun m => { m with noticesLost := 0 } else s) = s1
  refine (Moves.ite (P := maskNames mask .linkLost)
    (Moves.mapTrunks s1 (fun p => { p with lostLinks := 0 }) fun _ => rfl) .refl).trans ?_
  generalize (if maskNames mask .linkLost then { s1 with trunks := s1.trunks.map fun p => { p with lostLinks := 0 } } else s1) = s2
  exact Moves.ite (Moves.mapTrunks s2 (fun p => { p with cmdFailures := 0 }) fun _ => rfl) .refl

/-! ### The records that change the Seat Table -/

theorem State.applyEffects_moves (s : State) (l : List (FloorEffect × Seat)) : Moves o s (s.applyEffects l) := by
  unfold State.applyEffects
  refine (Moves.foldl State.applyEffect (fun a e => ?_) l s).trans ((State.levelChanged_moves _).trans (State.holdChanged_moves _ _))
  unfold State.applyEffect
  split
  · exact .refl
  · exact a.clearBarred_moves _
  · exact a.clearChair_moves _

theorem State.loadSeats_moves (s : State) (p : LoadSeatParams) : Moves o (s.setStb (p.stbAfter s.stb)) (s.loadSeats p) := by
  unfold State.loadSeats
  generalize s.setStb (p.stbAfter s.stb) = s1
  exact (s1.applyEffects_moves _).trans (State.settle_moves _)

theorem State.setClassRec_moves (s : State) (n : Fin 8) (r : ClassRec) : Moves o (s.setStb (s.stb.setClass n r)) (s.setClassRec n r) := by
  unfold State.setClassRec
  generalize s.setStb (s.stb.setClass n r) = s1
  exact (s1.applyEffects_moves _).trans (State.settle_moves _)

theorem Stb.sameSeating_refl (a : Stb) : a.sameSeating a := ⟨fun _ => rfl, rfl, fun _ => ⟨rfl, rfl, rfl⟩⟩

/-- The record after LOAD_SEAT at one index: changed when the range holds its seat. -/
theorem loadSeat_foldl_at (p : LoadSeatParams) (i : Fin 480) (l : List Seat) (v : Vector SeatRec 480)
    (h : (p.apply (vget v i)).cls = (vget v i).cls ∨ ∀ x ∈ l, seatIndex x ≠ i)
    (idem : ∀ r, (p.apply r).cls = r.cls → (p.apply (p.apply r)).cls = (p.apply r).cls) :
    (vget (l.foldl (fun v x => vset v (seatIndex x) (p.apply (vget v (seatIndex x)))) v) i).cls = (vget v i).cls := by
  induction l generalizing v with
  | nil => rfl
  | cons x l ih =>
    simp only [List.foldl_cons]
    by_cases hx : seatIndex x = i
    · have h1 : (p.apply (vget v i)).cls = (vget v i).cls := h.resolve_right fun h2 => h2 x (by simp) hx
      rw [ih _ (.inl (by simpa [hx] using idem _ h1))]
      simpa [hx] using h1
    · have e : vget (vset v (seatIndex x) (p.apply (vget v (seatIndex x)))) i = vget v i := vget_vset_other _ _ _ _ hx
      rw [ih _ (by rw [e]; exact h.imp_right fun h2 y hy => h2 y (by simp [hy])), e]

theorem seatAt_seatIndex (x : Seat) : seatAt (seatIndex x) = x := by
  rcases x with ⟨t, q⟩
  have := q.isLt
  simp only [seatAt, seatIndex, Seat.mk.injEq]
  constructor <;> apply Fin.ext <;> simp only <;> omega

theorem seatIndex_seatAt (i : Fin 480) : seatIndex (seatAt i) = i := by
  apply Fin.ext
  simp only [seatAt, seatIndex]
  omega

theorem loadSeat_apply_cls (p : LoadSeatParams) (r : SeatRec) : (p.apply r).cls = codeOr (finOfByte 8) p.cls r.cls := rfl

/-- A LOAD_SEAT that passes the sitting lock leaves every seat in its class (R18, R183). -/
theorem loadSeat_sameSeating (p : LoadSeatParams) (s : State) (h : s.loadMoves p = false) : (p.stbAfter s.stb).sameSeating s.stb := by
  unfold LoadSeatParams.stbAfter
  refine ⟨fun i => ?_, rfl, fun _ => ⟨rfl, rfl, rfl⟩⟩
  refine loadSeat_foldl_at p i p.range s.stb.seats ?_ ?_
  · by_cases hi : ∃ x ∈ p.range, seatIndex x = i
    · obtain ⟨x, hx, rfl⟩ := hi
      left
      simp only [State.loadMoves, List.any_eq_false, decide_eq_true_eq] at h
      have := h x hx
      simpa [State.seatRec] using this
    · right
      intro x hx e
      exact hi ⟨x, hx, e⟩
  · intro r hr
    simp only [loadSeat_apply_cls] at *
    revert hr
    cases h : (p.cls.bind (finOfByte 8)) <;> simp [codeOr, h]

theorem chairLimit_max {old new : Stb} (h : chairLimitFails old new = false) : new.chairCount ≤ max 8 old.chairCount := by
  simp only [chairLimitFails, Bool.and_eq_false_iff, decide_eq_false_iff_not, not_lt] at h
  exact le_max_iff.mpr h

/-- A class record replaced under the sitting lock (R11, R183). -/
theorem Stb.setClass_sameSeating (stb : Stb) (n : Fin 8) (r : ClassRec) (h : classLocked (vget stb.classes n) r = false) :
    (stb.setClass n r).sameSeating stb := by
  refine ⟨fun _ => rfl, rfl, fun k => ?_⟩
  simp only [classLocked, Bool.or_eq_false_iff, decide_eq_false_iff_not, not_not] at h
  simp only [Stb.setClass, vget_vset]
  split
  · rename_i e
    subst e
    exact ⟨h.1.1.symm, h.1.2.symm, h.2.symm⟩
  · exact ⟨rfl, rfl, rfl⟩

/-- A record body that changes the Seat Table, and what its reply adds. -/
theorem State.runRecord_seating (s : State) (i : Instr) (k : Byte) (body : State → Answer)
    (h : Moves true s (body s).state ∨ ∃ stb : Stb, (s.mge.sittingOpen = true → stb.sameSeating s.stb) ∧ stb.chairCount ≤ max 8 s.stb.chairCount
      ∧ Moves true (s.setStb stb) (body s).state) : Change s (s.runRecord i k body) := by
  obtain h | ⟨stb, locked, chairs, h⟩ := h
  · exact .path (s.runRecord_moves i k body h)
  · unfold State.runRecord
    split
    · exact .seating stb locked chairs (h.trans ((State.replied_moves _ _ _).trans (State.countBatch_moves _ _ _)))
    · exact .path .refl

theorem execLoadSeat_change (p : LoadSeatParams) (s : State) : Change s (s.runRecord (.loadSeat p) 0x01 (loadSeatBody p)) := by
  apply s.runRecord_seating
  unfold loadSeatBody
  split
  · exact .inl .refl
  · split
    · exact .inl .refl
    · split
      · exact .inl .refl
      · split
        · exact .inl .refl
        · rename_i lock
          split
          · exact .inl .refl
          · rename_i chairs
            right
            refine ⟨p.stbAfter s.stb, fun ho => loadSeat_sameSeating p s ?_, chairLimit_max (Bool.eq_false_iff.mpr chairs), ?_⟩
            · simpa [ho] using lock
            · dsimp only
              exact s.loadSeats_moves p

theorem execSetClass_change (p : SetClassParams) (s : State) : Change s (s.runRecord (.setClass p) 0x03 (setClassBody p)) := by
  apply s.runRecord_seating
  unfold setClassBody
  split
  · exact .inl .refl
  · rename_i n _
    dsimp only
    split
    · exact .inl .refl
    · split
      · exact .inl .refl
      · rename_i lock
        split
        · exact .inl .refl
        · rename_i chairs
          right
          refine ⟨s.stb.setClass n (p.apply (vget s.stb.classes n)), fun ho => s.stb.setClass_sameSeating _ _ ?_,
            chairLimit_max (Bool.eq_false_iff.mpr chairs), ?_⟩
          · simpa [ho] using lock
          · dsimp only
            exact s.setClassRec_moves n _

theorem setZone_apply_empty (p : SetZoneParams) (z : ZoneRec) (h : p.empty = true) : p.apply z = z := by
  simp only [SetZoneParams.empty, Bool.and_eq_true, Option.isNone_iff_eq_none] at h
  simp [SetZoneParams.apply, h.1.1.1, h.1.1.2, h.1.2, h.2, codeOr, halfNum, byteNum, numOr]

theorem execSetZone_change (p : SetZoneParams) (s : State) : Change s (s.runRecord (.setZone p) 0x05 (setZoneBody p)) := by
  apply s.runRecord_seating
  unfold setZoneBody
  split
  · exact .inl .refl
  · rename_i n _
    dsimp only
    split
    · exact .inl .refl
    · split
      · exact .inl .refl
      · rename_i lock
        right
        refine ⟨s.stb.setZone n (p.apply (vget s.stb.zones n)), fun ho => ?_, le_max_right _ _, .refl⟩
        have he : p.empty = true := by simpa [ho] using lock
        rw [setZone_apply_empty p _ he]
        simp [Stb.setZone, Stb.sameSeating]

/-! ### The other records that are no paths -/

theorem State.setSettings_moves (s : State) (v : Settings) : Moves o (s.modMge fun m => { m with settings := v }) (s.setSettings v) := by
  unfold State.setSettings
  generalize (s.modMge fun m => { m with settings := v }) = s1
  dsimp only
  refine (Moves.ite .refl (s1.monitorChanged_moves _)).trans (Moves.ite (State.trigger_moves _) .refl)

theorem execSetFloor_change (p : SetFloorParams) (s : State) : Change s (s.runRecord (.setFloor p) 0x50 (setFloorBody p)) := by
  unfold State.runRecord
  split
  · unfold setFloorBody
    split
    · exact .path ((State.replied_moves _ _ _).trans (State.countBatch_moves _ _ _))
    · exact .settings p (((s.setSettings_moves _).trans (State.settle_moves _)).trans
        ((State.replied_moves _ _ _).trans (State.countBatch_moves _ _ _)))
  · exact .path .refl

theorem execOpenSitting_change (s : State) : Change s (s.runRecord .openSitting 0x52 openSittingBody) := by
  unfold State.runRecord
  split
  · unfold openSittingBody
    split
    · exact .path ((State.replied_moves _ _ _).trans (State.countBatch_moves _ _ _))
    · rename_i h
      exact .opened (by simpa using h) ((State.replied_moves _ _ _).trans (State.countBatch_moves _ _ _))
  · exact .path .refl

theorem State.endSitting_moves (s : State) : Moves o s s.endSitting :=
  (Moves.foldl _ (fun a c => a.closeEach_moves _ _ c) _ _).trans (Moves.foldl _ (fun a x => a.listRemove_moves x _) _ _)

theorem execCloseSitting_change (s : State) : Change s (s.runRecord .closeSitting 0x53 closeSittingBody) := by
  unfold State.runRecord
  split
  · unfold closeSittingBody
    split
    · exact .closed s.endSitting_moves ((State.settle_moves _).trans ((State.replied_moves _ _ _).trans (State.countBatch_moves _ _ _)))
    · exact .path ((State.replied_moves _ _ _).trans (State.countBatch_moves _ _ _))
  · exact .path .refl

theorem State.runReset_change (s : State) : Change s s.runReset := by
  unfold State.runReset
  split
  · refine .engine ?_
    exact Moves.ite ((Relation.ReflTransGen.single (.reply _ s)).trans
      (.single (.queues _ _ (by simp [modNextPlace_length]) (by simp)))) (.single (.reply _ s))
  · exact .path .refl

/-! ### Every command -/

theorem ite_change {P : Prop} [Decidable P] {s a : State} (h : Moves true s a) : Change s (if P then a else s) := .path (.ite h .refl)

/-- Every command answers a next state, and its effect has one of the shapes of `Change`. -/
theorem exec_change (i : Instr) (s : State) : ∃ t, exec i s = .next t ∧ Change s t := by
  cases i with
  | powerOnReset => exact ⟨_, rfl, .reset _ _⟩
  | brownoutReset => exact ⟨_, rfl, .reset _ _⟩
  | pinReset => exact ⟨_, rfl, .reset _ _⟩
  | startUpHoldEnd =>
    refine ⟨_, rfl, ?_⟩
    split
    · exact .path .refl
    · rename_i h
      exact .holdEnd (by simpa using h)
  | hallFrameValid f => exact ⟨_, rfl, ite_change (s.receiveHall_moves _)⟩
  | hallFrameInvalid f => exact ⟨_, rfl, ite_change (s.receiveHall_moves _)⟩
  | hallFrameMissing => exact ⟨_, rfl, ite_change s.hallBad_moves⟩
  | hallLinkUp f => exact ⟨_, rfl, ite_change (s.hallValid_moves _)⟩
  | hallLinkLost => exact ⟨_, rfl, ite_change s.hallBad_moves⟩
  | hallAlignFail => exact ⟨_, rfl, ite_change s.hallBad_moves⟩
  | hallFrameSend => exact ⟨_, rfl, ite_change s.sendHall_moves⟩
  | mixComputation => exact ⟨_, rfl, ite_change (s.mixComputation_moves.trans (State.frameTick_moves _))⟩
  | decisecondExpiry => exact ⟨_, rfl, ite_change s.decisecondExpiry_moves⟩
  | secondExpiry => exact ⟨_, rfl, ite_change s.secondExpiry_moves⟩
  | speakWarning c => exact ⟨_, rfl, ite_change (s.warnStep_moves _)⟩
  | speakExpiry c => exact ⟨_, rfl, ite_change ((s.expireStep_moves _).trans (State.settle_moves _))⟩
  | offerLapse x => exact ⟨_, rfl, ite_change ((s.lapse_moves _).trans (State.settle_moves _))⟩
  | silenceTimerExpiry => exact ⟨_, rfl, ite_change s.unattend_moves⟩
  | trunkFrameGood t f => exact ⟨_, rfl, ite_change (s.receiveTrunk_moves _ _)⟩
  | trunkFrameMalformed t f => exact ⟨_, rfl, ite_change (s.receiveTrunk_moves _ _)⟩
  | trunkFrameMissing t => exact ⟨_, rfl, ite_change ((s.trunkBad_moves _).trans (State.settle_moves _))⟩
  | trunkUp t f => exact ⟨_, rfl, ite_change (s.trunkGood_moves _ _)⟩
  | trunkTrainingFail t => exact ⟨_, rfl, ite_change (s.trunkBad_moves _)⟩
  | trunkLinkLost t => exact ⟨_, rfl, ite_change ((s.trunkBad_moves _).trans (State.settle_moves _))⟩
  | trunkFrameSend t => exact ⟨_, rfl, ite_change ((s.sendTrunk_moves _).trans (State.settle_moves _))⟩
  | hello t p n a => exact ⟨_, rfl, .path (s.seatEvent_moves _ _ _ _ _)⟩
  | micPress t p n a => exact ⟨_, rfl, .path (s.seatEvent_moves _ _ _ _ _)⟩
  | confirm t p n a => exact ⟨_, rfl, .path (s.seatEvent_moves _ _ _ _ _)⟩
  | priorityDown t p n a => exact ⟨_, rfl, .path (s.seatEvent_moves _ _ _ _ _)⟩
  | priorityUp t p n a => exact ⟨_, rfl, .path (s.seatEvent_moves _ _ _ _ _)⟩
  | chairNext t p n a => exact ⟨_, rfl, .path (s.seatEvent_moves _ _ _ _ _)⟩
  | chairClear t p n a => exact ⟨_, rfl, .path (s.seatEvent_moves _ _ _ _ _)⟩
  | takeList t p n a => exact ⟨_, rfl, .path (s.seatEvent_moves _ _ _ _ _)⟩
  | giveList t p n a => exact ⟨_, rfl, .path (s.seatEvent_moves _ _ _ _ _)⟩
  | openComplete x r => exact ⟨_, rfl, .path (s.takeAck_moves _ _ _ _)⟩
  | muteComplete x r => exact ⟨_, rfl, .path (s.takeAck_moves _ _ _ _)⟩
  | unmuteComplete x r => exact ⟨_, rfl, .path (s.takeAck_moves _ _ _ _)⟩
  | closeComplete x r => exact ⟨_, rfl, .path (s.takeAck_moves _ _ _ _)⟩
  | offerComplete x r => exact ⟨_, rfl, .path (s.takeAck_moves _ _ _ _)⟩
  | indicationComplete x r => exact ⟨_, rfl, .path (s.takeAck_moves _ _ _ _)⟩
  | withdrawComplete x r => exact ⟨_, rfl, .path (s.takeAck_moves _ _ _ _)⟩
  | probeAnswered x r d => exact ⟨_, rfl, .path (s.takeAck_moves _ _ _ _)⟩
  | commandAttemptFailed t =>
    refine ⟨_, rfl, .path ?_⟩
    split
    · exact (s.attemptFailed_moves _ _).trans (State.settle_moves _)
    · exact .refl
  | levelWindowComplete c x =>
    exact ⟨_, rfl, ite_change (((s.handSlot_moves _ _).trans (State.finishWindow_moves _ _)).trans (State.settle_moves _))⟩
  | silenceRelease c => exact ⟨_, rfl, ite_change ((s.silenceStep_moves _).trans (State.settle_moves _))⟩
  | unknownRecord k => exact ⟨_, rfl, ite_change (s.runRecord_moves _ _ _ .refl)⟩
  | loadSeat p => exact ⟨_, rfl, execLoadSeat_change p s⟩
  | readSeat x => exact ⟨_, rfl, .path (s.runRecord_moves _ _ _ (onSeat_moves fun _ => .refl))⟩
  | setClass p => exact ⟨_, rfl, execSetClass_change p s⟩
  | readClass n => exact ⟨_, rfl, .path (s.runRecord_moves _ _ _ (readClassBody_moves s n))⟩
  | setZone p => exact ⟨_, rfl, execSetZone_change p s⟩
  | readZone z => exact ⟨_, rfl, .path (s.runRecord_moves _ _ _ (readZoneBody_moves s z))⟩
  | census t => exact ⟨_, rfl, .path (s.runRecord_moves _ _ _ (onTrunk_moves fun t => censusTrunk_moves s t))⟩
  | abortCensus t => exact ⟨_, rfl, .path (s.runRecord_moves _ _ _ (onTrunk_moves fun t => abortTrunk_moves s t))⟩
  | holdTrunk t => exact ⟨_, rfl, .path (s.runRecord_moves _ _ _ (onTrunk_moves fun t => holdTrunkBody_moves s t))⟩
  | releaseTrunk t => exact ⟨_, rfl, .path (s.runRecord_moves _ _ _ (onTrunk_moves fun t => releaseTrunkBody_moves s t))⟩
  | readTrunk t => exact ⟨_, rfl, .path (s.runRecord_moves _ _ _ (onTrunk_moves fun _ => .refl))⟩
  | close x => exact ⟨_, rfl, .path (s.runRecord_moves _ _ _ (onSeat_moves fun x => closeSeatBody_moves s x))⟩
  | closeAll => exact ⟨_, rfl, .path (s.runRecord_moves _ _ _ (closeAllBody_moves s))⟩
  | readChannels => exact ⟨_, rfl, .path (s.runRecord_moves _ _ _ .refl)⟩
  | insertRequest x n =>
    exact ⟨_, rfl, .path (s.runRecord_moves _ _ _ (onSeat_moves fun x => gated_moves (insertSeatBody_moves s n x)))⟩
  | cancelRequest x => exact ⟨_, rfl, .path (s.runRecord_moves _ _ _ (onSeat_moves fun x => gated_moves (cancelSeatBody_moves s x)))⟩
  | clearList => exact ⟨_, rfl, .path (s.runRecord_moves _ _ _ (gated_moves (s.clearWholeList_moves.trans (State.settle_moves _))))⟩
  | readList a b => exact ⟨_, rfl, .path (s.runRecord_moves _ _ _ (readListBody_moves s a b))⟩
  | next => exact ⟨_, rfl, .path (s.runRecord_moves _ _ _ (gated_moves (nextBody_moves s)))⟩
  | grant x => exact ⟨_, rfl, .path (s.runRecord_moves _ _ _ (onSeat_moves fun x => gated_moves (grantBody_moves s x)))⟩
  | claimList => exact ⟨_, rfl, .path (s.runRecord_moves _ _ _ (gated_moves (s.setClaim_moves _)))⟩
  | yieldList => exact ⟨_, rfl, .path (s.runRecord_moves _ _ _ (s.setClaim_moves _))⟩
  | forceList f => exact ⟨_, rfl, .path (s.runRecord_moves _ _ _ (forceListBody_moves s f))⟩
  | readMix => exact ⟨_, rfl, .path (s.runRecord_moves _ _ _ .refl)⟩
  | batch n => exact ⟨_, rfl, .path (s.runRecord_moves _ _ _ (batchBody_moves s n))⟩
  | setNotices v => exact ⟨_, rfl, .path (s.runRecord_moves _ _ _ (setNoticesBody_moves s v))⟩
  | setFloor p => exact ⟨_, rfl, execSetFloor_change p s⟩
  | readSettings => exact ⟨_, rfl, .path (s.runRecord_moves _ _ _ .refl)⟩
  | openSitting => exact ⟨_, rfl, execOpenSitting_change s⟩
  | closeSitting => exact ⟨_, rfl, execCloseSitting_change s⟩
  | readStatus => exact ⟨_, rfl, .path (s.runRecord_moves _ _ _ .refl)⟩
  | clearStatus m => exact ⟨_, rfl, .path (s.runRecord_moves _ _ _ (clearStatusBody_moves s m))⟩
  | setReport v => exact ⟨_, rfl, .path (s.runRecord_moves _ _ _ (setReportBody_moves s v))⟩
  | resetEngine => exact ⟨_, rfl, s.runReset_change⟩
  | readIdent => exact ⟨_, rfl, .path (s.runRecord_moves _ _ _ .refl)⟩

/-- Every step answers a next state: the change of one command on the state with that command taken from its queue. -/
theorem step_change (s : State) : ∃ t, step s = .next t ∧ Change { s with pending := s.pending.tail } t := by
  unfold step
  split
  · rename_i i rest h
    rw [h]
    exact exec_change i _
  · rename_i h
    have hs : ({ s with pending := s.pending.tail } : State) = s := by
      have e : s.pending.tail = s.pending := by rw [h]; rfl
      rw [e]
    rw [hs]
    unfold idle
    split
    · exact exec_change _ s
    · exact ⟨_, rfl, .path (s.answerBadLength_moves _)⟩
    · exact ⟨_, rfl, .path (.ite s.endOwnBatch_moves .refl)⟩

end Sys2Proof.Machine
end

