-- ==== Sys2Proof/Laws/Frames.lean ====
section
/-! SUPPORT. What each shared operation of the floor can do, said once: what it changes, and that it leaves the rest. -/

namespace Sys2Proof.Machine

/-! ### Flags -/

theorem Flag.bit_lt (f : Flag) : f.bit < 14 := by cases f <;> decide

/-- A flag just set is set (R186). -/
theorem flagsHas_set (f : Flag) (w : BitVec 14) : flagsHas f (flagsSet f w) = true := by
  simp [flagsHas, flagsSet, f.bit_lt]

/-- Setting a flag clears none (R186). -/
theorem flagsHas_mono {f g : Flag} {w : BitVec 14} (h : flagsHas f w = true) : flagsHas f (flagsSet g w) = true := by
  simp only [flagsHas] at h
  simp [flagsHas, flagsSet, h]

/-! ### Placing a command (R31, R32) -/

/-- A placement changes only the trunk's command queue. -/
theorem State.place_eq (s : State) (x : Seat) (cmd : Cmd) : s.place x cmd = { s with trunks := (s.place x cmd).trunks } := by
  unfold State.place State.placeReport
  split <;> rfl

/-- What a placement leaves in the trunks depends on the trunks and on whether the seat is PRESENT. -/
theorem State.place_trunks_congr {s u : State} {x : Seat} (cmd : Cmd) (trunks : u.trunks = s.trunks)
    (present : (u.seatRec x).availability = (s.seatRec x).availability) : (u.place x cmd).trunks = (s.place x cmd).trunks := by
  unfold State.place State.placeReport State.tpc
  rw [trunks, present]
  split <;> simp [State.modTpc, State.tpc, trunks]

@[simp] theorem State.place_stb (s : State) (x : Seat) (cmd : Cmd) : (s.place x cmd).stb = s.stb := by rw [s.place_eq]
@[simp] theorem State.place_slm (s : State) (x : Seat) (cmd : Cmd) : (s.place x cmd).slm = s.slm := by rw [s.place_eq]
@[simp] theorem State.place_fmx (s : State) (x : Seat) (cmd : Cmd) : (s.place x cmd).fmx = s.fmx := by rw [s.place_eq]
@[simp] theorem State.place_mge (s : State) (x : Seat) (cmd : Cmd) : (s.place x cmd).mge = s.mge := by rw [s.place_eq]
@[simp] theorem State.place_hli (s : State) (x : Seat) (cmd : Cmd) : (s.place x cmd).hli = s.hli := by rw [s.place_eq]

/-! ### Queuing a notice (R173) -/

@[simp] theorem State.notify_trunks (s : State) (n : Notice) : (s.notify n).trunks = s.trunks := by
  unfold State.notify; split <;> [split; skip] <;> rfl
@[simp] theorem State.notify_stb (s : State) (n : Notice) : (s.notify n).stb = s.stb := by
  unfold State.notify; split <;> [split; skip] <;> rfl
@[simp] theorem State.notify_slm (s : State) (n : Notice) : (s.notify n).slm = s.slm := by
  unfold State.notify; split <;> [split; skip] <;> rfl
@[simp] theorem State.notify_fmx (s : State) (n : Notice) : (s.notify n).fmx = s.fmx := by
  unfold State.notify; split <;> [split; skip] <;> rfl
@[simp] theorem State.notify_settings (s : State) (n : Notice) : (s.notify n).mge.settings = s.mge.settings := by
  unfold State.notify; split <;> [split; skip] <;> rfl
@[simp] theorem State.notify_batch (s : State) (n : Notice) : (s.notify n).mge.batch = s.mge.batch := by
  unfold State.notify; split <;> [split; skip] <;> rfl

/-! ### Only notices -/

@[simp] theorem State.notices_nil (s : State) : s.notices [] = s := rfl
@[simp] theorem State.notices_cons (s : State) (n : Notice) (ns : List Notice) : s.notices (n :: ns) = (s.notify n).notices ns := rfl
theorem State.notices_append (s : State) (ns ms : List Notice) : s.notices (ns ++ ms) = (s.notices ns).notices ms := List.foldl_append

/-- What queuing a notice leaves in HLI and MGE depends on HLI and MGE. -/
theorem State.notify_congr {s u : State} (n : Notice) (hli : u.hli = s.hli) (mge : u.mge = s.mge) :
    (u.notify n).hli = (s.notify n).hli ∧ (u.notify n).mge = (s.notify n).mge := by
  unfold State.notify
  rw [hli]
  split <;> [split; skip] <;> simp [State.modHli, State.modMge, State.setFlag, hli, mge]

theorem State.notices_congr {s u : State} (ns : List Notice) (hli : u.hli = s.hli) (mge : u.mge = s.mge) :
    (u.notices ns).hli = (s.notices ns).hli ∧ (u.notices ns).mge = (s.notices ns).mge := by
  induction ns generalizing s u with
  | nil => exact ⟨hli, mge⟩
  | cons n ns ih => exact ih (State.notify_congr n hli mge).1 (State.notify_congr n hli mge).2

theorem State.onlyNotices_refl (s : State) : s.onlyNotices [] s := by simp [State.onlyNotices]

theorem State.onlyNotices_trans {a b c : State} {ns ms : List Notice} (h : a.onlyNotices ns b) (h' : b.onlyNotices ms c) :
    a.onlyNotices (ns ++ ms) c := by
  obtain ⟨h1, h2, h3, h4, h5, h6, h7, h8, h9⟩ := h
  obtain ⟨g1, g2, g3, g4, g5, g6, g7, g8, g9⟩ := h'
  have k := State.notices_congr ms h8 h9
  refine ⟨g1.trans h1, g2.trans h2, g3.trans h3, g4.trans h4, g5.trans h5, g6.trans h6, g7.trans h7, ?_, ?_⟩
  · rw [g8, k.1, State.notices_append]
  · rw [g9, k.2, State.notices_append]

/-- A change that queues nothing, before one that does. -/
theorem State.onlyNotices_after {a b c : State} {ns : List Notice} (h : a.onlyNotices [] b) (h' : b.onlyNotices ns c) : a.onlyNotices ns c :=
  State.onlyNotices_trans h h'

/-- A change that queues nothing, after one that does. -/
theorem State.onlyNotices_then {a b c : State} {ns : List Notice} (h : a.onlyNotices ns b) (h' : b.onlyNotices [] c) :
    a.onlyNotices ns c := by
  have := State.onlyNotices_trans h h'
  rwa [List.append_nil] at this

theorem State.onlyNotices_notify (s : State) (n : Notice) : s.onlyNotices [n] (s.notify n) := by
  unfold State.onlyNotices
  simp only [State.notices_cons, State.notices_nil]
  unfold State.notify
  split <;> [split; skip] <;> simp [State.modHli, State.modMge, State.setFlag]

/-- A state with the same links, settings, classes and zones. -/
theorem State.onlyNotices_of {s u : State} (h1 : u.startUpHold = s.startUpHold) (h2 : u.lastReply = s.lastReply) (h3 : u.hallOut = s.hallOut)
    (h4 : u.trunkOut = s.trunkOut) (h5 : u.pending = s.pending) (h6 : u.stb.classes = s.stb.classes) (h7 : u.stb.zones = s.stb.zones)
    (h8 : u.hli = s.hli) (h9 : u.mge = s.mge) : s.onlyNotices [] u := ⟨h1, h2, h3, h4, h5, h6, h7, h8, h9⟩

theorem State.onlyNotices_place (s : State) (x : Seat) (cmd : Cmd) : s.onlyNotices [] (s.place x cmd) := by
  rw [s.place_eq]
  exact State.onlyNotices_of rfl rfl rfl rfl rfl rfl rfl rfl rfl

theorem State.onlyNotices_notifyChan (s : State) (c : Fin 12) (n : Seat → Notice) :
    s.onlyNotices ((s.chan c).seat.map n).toList (s.notifyChan c n) := by
  unfold State.notifyChan
  split <;> rename_i h <;> rw [h]
  · exact s.onlyNotices_notify _
  · exact s.onlyNotices_refl

theorem State.onlyNotices_addClock (s : State) (c : Fin 12) : s.onlyNotices [] (s.addClock c) := by
  unfold State.addClock
  split
  · exact State.onlyNotices_of rfl rfl rfl rfl rfl rfl rfl rfl rfl
  · exact s.onlyNotices_refl

/-! ### Channels -/

theorem State.clearChan_chan (s : State) (c d : Fin 12) : (s.clearChan c).chan d = if c = d then Channel.reset else s.chan d := by
  simp [State.chan, State.modChan, State.clearChan, State.modFar, vget_vset]

@[simp] theorem State.notifyChan_stb (s : State) (c : Fin 12) (n : Seat → Notice) : (s.notifyChan c n).stb = s.stb := by
  unfold State.notifyChan; split <;> simp
@[simp] theorem State.notifyChan_trunks (s : State) (c : Fin 12) (n : Seat → Notice) : (s.notifyChan c n).trunks = s.trunks := by
  unfold State.notifyChan; split <;> simp
@[simp] theorem State.notifyChan_slm (s : State) (c : Fin 12) (n : Seat → Notice) : (s.notifyChan c n).slm = s.slm := by
  unfold State.notifyChan; split <;> simp
@[simp] theorem State.notifyChan_fmx (s : State) (c : Fin 12) (n : Seat → Notice) : (s.notifyChan c n).fmx = s.fmx := by
  unfold State.notifyChan; split <;> simp

/-- Only the speaking clock's seat record changes. -/
theorem State.addClock_eq (s : State) (c : Fin 12) : s.addClock c = { s with stb := (s.addClock c).stb } := by
  unfold State.addClock
  split <;> rfl

theorem State.addClock_some {s : State} {c : Fin 12} {x : Seat} (h : (s.chan c).seat = some x) :
    s.addClock c = s.modSeat x fun r => { r with speakingTotal := satAdd 999999 r.speakingTotal (s.slmOf c).clock } := by
  simp [State.addClock, h]

/-- The notice of a freed channel (R70). -/
theorem State.onlyNotices_notifyClose {s a : State} (c : Fin 12) (cause : CloseCause) (far : a.far = s.far)
    (clock : (a.slmOf c).clock = (s.slmOf c).clock) :
    a.onlyNotices ((s.chan c).seat.map fun x => .chClose c x cause (s.closingClock c)).toList (a.notifyClose c cause) := by
  have h := a.onlyNotices_notifyChan c fun x => .chClose c x cause (a.closingClock c)
  have e : a.chan c = s.chan c := by simp [State.chan, far]
  have k : a.closingClock c = s.closingClock c := by simp [State.closingClock, e, clock]
  rw [e] at h
  simp only [k] at h
  unfold State.notifyClose
  simpa only [k] using h

/-- Freeing a channel (R63): the entry cleared and out of the open sequence, a promotion trigger; the clock of a channel that was OPEN or
HELD added to its seat's total, the window of an OPEN one aborted; CH_CLOSE queued (R70), and nothing else. -/
theorem State.freeChannel_spec (s : State) (c : Fin 12) (cause : CloseCause) (busy : (s.chan c).state ≠ .free) :
    (s.freeChannel c cause).chan c = Channel.reset ∧ (∀ d, d ≠ c → (s.freeChannel c cause).chan d = s.chan d)
      ∧ (s.freeChannel c cause).far = { s.far with
          channels := (s.freeChannel c cause).far.channels
          openSeq := s.far.openSeq.filter fun d => d ≠ c
          promotionDeferred := true }
      ∧ (s.freeChannel c cause).stb = (if (s.chan c).state = .opened ∨ (s.chan c).state = .held then s.addClock c else s).stb
      ∧ (s.freeChannel c cause).slm = (if (s.chan c).state = .opened then s.abortWindow c else s).slm
      ∧ (s.freeChannel c cause).trunks = s.trunks ∧ (s.freeChannel c cause).fmx = s.fmx
      ∧ s.onlyNotices ((s.chan c).seat.map fun x => .chClose c x (s.freeCause c cause) (s.closingClock c)).toList (s.freeChannel c cause) := by
  have key : ∀ a : State, a.far = s.far → (a.slmOf c).clock = (s.slmOf c).clock → ((a.notifyClose c (s.freeCause c cause)).clearChan c).trigger.chan c = Channel.reset
      ∧ (∀ d, d ≠ c → ((a.notifyClose c (s.freeCause c cause)).clearChan c).trigger.chan d = s.chan d)
      ∧ ((a.notifyClose c (s.freeCause c cause)).clearChan c).trigger.far = { s.far with
          channels := ((a.notifyClose c (s.freeCause c cause)).clearChan c).trigger.far.channels
          openSeq := s.far.openSeq.filter fun d => d ≠ c
          promotionDeferred := true }
      ∧ ((a.notifyClose c (s.freeCause c cause)).clearChan c).trigger.stb = a.stb
      ∧ ((a.notifyClose c (s.freeCause c cause)).clearChan c).trigger.slm = a.slm
      ∧ ((a.notifyClose c (s.freeCause c cause)).clearChan c).trigger.trunks = a.trunks
      ∧ ((a.notifyClose c (s.freeCause c cause)).clearChan c).trigger.fmx = a.fmx
      ∧ a.onlyNotices ((s.chan c).seat.map fun x => .chClose c x (s.freeCause c cause) (s.closingClock c)).toList
          ((a.notifyClose c (s.freeCause c cause)).clearChan c).trigger := by
    intro a ha hk
    have hc : ∀ d, (a.notifyClose c (s.freeCause c cause)).chan d = s.chan d := by intro d; simp [State.chan, ha]
    refine ⟨by simp [State.trigger_chan, State.clearChan_chan], fun d hd => ?_, ?_, ?_, ?_, ?_, ?_, ?_⟩
    · simp [State.trigger_chan, State.clearChan_chan, Ne.symm hd, hc]
    · simp [State.trigger, State.clearChan, State.modChan, State.modFar, ha]
    · exact a.notifyChan_stb c _
    · exact a.notifyChan_slm c _
    · exact a.notifyChan_trunks c _
    · exact a.notifyChan_fmx c _
    · exact State.onlyNotices_then (State.onlyNotices_notifyClose c _ ha hk) (State.onlyNotices_of rfl rfl rfl rfl rfl rfl rfl rfl rfl)
  unfold State.freeChannel
  split
  · rename_i h; exact absurd h busy
  · rename_i h
    obtain ⟨k1, k2, k3, k4, k5, k6, k7, k8⟩ := key ((s.addClock c).abortWindow c) (by simp)
      (by rw [s.addClock_eq]; simp [State.abortWindow, State.modSlm, SlmChan.noWindow, State.slmOf])
    refine ⟨k1, k2, k3, ?_, ?_, ?_, ?_, ?_⟩
    · rw [k4]; simp [h, State.abortWindow]
    · rw [k5, if_pos h, s.addClock_eq]; rfl
    · rw [k6, s.addClock_eq]; rfl
    · rw [k7, s.addClock_eq]; rfl
    · refine State.onlyNotices_after (s.onlyNotices_addClock c) (State.onlyNotices_after ?_ k8)
      exact State.onlyNotices_of rfl rfl rfl rfl rfl rfl rfl rfl rfl
  · rename_i h
    obtain ⟨k1, k2, k3, k4, k5, k6, k7, k8⟩ := key (s.addClock c) (by simp) (by rw [s.addClock_eq]; rfl)
    refine ⟨k1, k2, k3, ?_, ?_, ?_, ?_, ?_⟩
    · rw [k4]; simp [h]
    · rw [k5, if_neg (by simp [h]), s.addClock_eq]
    · rw [k6, s.addClock_eq]
    · rw [k7, s.addClock_eq]
    · exact State.onlyNotices_after (s.onlyNotices_addClock c) k8
  all_goals
    rename_i h
    obtain ⟨k1, k2, k3, k4, k5, k6, k7, k8⟩ := key s rfl rfl
    refine ⟨k1, k2, k3, ?_, ?_, k6, k7, k8⟩
    · rw [k4]; simp [h]
    · rw [k5]; simp [h]

/-- A channel enters CLOSING (R60). -/
theorem State.enterClosing_spec (s : State) (c : Fin 12) (cause : CloseCause) {x : Seat} (seat : (s.chan c).seat = some x) :
    s.enterClosing c cause = { s with
      far := (s.modChan c fun ch => { ch with state := .closing, closeCause := some cause }).far
      trunks := (s.place x .close).trunks } := by
  unfold State.enterClosing
  rw [seat]
  dsimp only
  rw [State.place_eq]
  have h : ((s.modChan c fun ch => { ch with state := .closing, closeCause := some cause }).place x .close).trunks
      = (s.place x .close).trunks := State.place_trunks_congr .close rfl rfl
  rw [h]
  rfl

/-- A close request on an OPEN channel (R60, R143, R146). -/
theorem State.closeRequest_opened (s : State) (c : Fin 12) (cause : CloseCause) {x : Seat} (seat : (s.chan c).seat = some x)
    (opened : (s.chan c).state = .opened) : s.closeRequest c cause = { s with
      far := (s.modChan c fun ch => { ch with state := .closing, closeCause := some cause }).far
      trunks := (s.place x .close).trunks
      slm := (s.abortWindow c).slm
      stb := (s.modSeat x fun r => { r with speakingTotal := satAdd 999999 r.speakingTotal (s.slmOf c).clock }).stb } := by
  unfold State.closeRequest
  rw [opened]
  dsimp only
  rw [s.enterClosing_spec c cause seat, State.addClock_some (x := x)]
  · simp [State.modSeat, State.abortWindow, State.modSlm, State.slmOf, SlmChan.noWindow, State.seatRec]
  · rw [State.abortWindow_chan]
    show ((s.modChan c fun ch => { ch with state := .closing, closeCause := some cause }).chan c).seat = some x
    simp [seat]

/-- A close request on a HELD channel (R60, R143). -/
theorem State.closeRequest_held (s : State) (c : Fin 12) (cause : CloseCause) {x : Seat} (seat : (s.chan c).seat = some x)
    (held : (s.chan c).state = .held) : s.closeRequest c cause = { s with
      far := (s.modChan c fun ch => { ch with state := .closing, closeCause := some cause }).far
      trunks := (s.place x .close).trunks
      stb := (s.modSeat x fun r => { r with speakingTotal := satAdd 999999 r.speakingTotal (s.slmOf c).clock }).stb } := by
  unfold State.closeRequest
  rw [held]
  dsimp only
  rw [s.enterClosing_spec c cause seat, State.addClock_some (x := x)]
  · simp [State.modSeat, State.slmOf, State.seatRec]
  · show ((s.modChan c fun ch => { ch with state := .closing, closeCause := some cause }).chan c).seat = some x
    simp [seat]

/-! ### The list (R74, R78) -/

/-- The index of a seat's entry is that of its first entry. -/
theorem State.entryOf_index {s : State} {x : Seat} {e : Entry} (h : s.entryOf x = some e) :
    ∃ i, s.listIndex x = some i ∧ s.far.list.eraseIdx i = s.far.list.eraseP fun a => a.seat = x := by
  unfold State.entryOf at h
  unfold State.listIndex
  cases q : s.far.list.findIdx? (fun e => decide (e.seat = x)) with
  | none =>
    rw [List.findIdx?_eq_none_iff] at q
    have := q e (List.mem_of_find?_eq_some h)
    have := List.find?_some h
    simp_all
  | some i =>
    refine ⟨i, rfl, ?_⟩
    rw [List.eraseP_eq_eraseIdx]
    simp [q]

/-- A removal takes the seat's entry out of the list, with notice LIST_REMOVE, and places REFUSED for a WAITING entry cancelled, cleared or
ended by the sitting (R78). -/
theorem State.listRemove_spec {s : State} {x : Seat} {e : Entry} (h : s.entryOf x = some e) (cause : RemovalCause) :
    ∃ i, s.listIndex x = some i ∧ s.listRemove x cause =
      (if e.state = .waiting ∧ (cause = .cancelled ∨ cause = .cleared ∨ cause = .sitting) then
        (((s.modFar fun f => { f with list := f.list.eraseP fun a => a.seat = x }).notify
          (.listRemove x cause i (s.far.list.eraseP fun a => a.seat = x).length))).place x .refused
      else ((s.modFar fun f => { f with list := f.list.eraseP fun a => a.seat = x }).notify
        (.listRemove x cause i (s.far.list.eraseP fun a => a.seat = x).length))) := by
  obtain ⟨i, h1, h2⟩ := State.entryOf_index h
  refine ⟨i, h1, ?_⟩
  unfold State.listRemove
  rw [h, h1]
  simp only [State.modFar, h2]

/-- Ending an offer (R84, R87, R89, R90): the entry leaves the list, the channel is freed, WITHDRAW is placed where asked. -/
theorem State.endOffer_spec {s : State} {x : Seat} {e : Entry} {c : Fin 12} (h : s.entryOf x = some e) (offered : e.state = .offered)
    (hc : s.chanOf x = some c) (hs : (s.chan c).state = .offered) (removal : RemovalCause) (cause : CloseCause) (withdraw : Bool) :
    (s.endOffer x removal cause withdraw).chan c = Channel.reset
      ∧ (∀ d, d ≠ c → (s.endOffer x removal cause withdraw).chan d = s.chan d)
      ∧ (s.endOffer x removal cause withdraw).far = { s.far with
          channels := (s.endOffer x removal cause withdraw).far.channels
          openSeq := s.far.openSeq.filter fun d => d ≠ c
          list := s.far.list.eraseP fun a => a.seat = x
          promotionDeferred := true }
      ∧ (s.endOffer x removal cause withdraw).stb = s.stb ∧ (s.endOffer x removal cause withdraw).slm = s.slm
      ∧ (s.endOffer x removal cause withdraw).fmx = s.fmx
      ∧ (s.endOffer x removal cause withdraw).trunks = (if withdraw then s.place x .withdraw else s).trunks
      ∧ ∃ i, s.listIndex x = some i ∧ s.onlyNotices [.listRemove x removal i (s.far.list.eraseP fun a => a.seat = x).length,
          .chClose c x cause 0] (s.endOffer x removal cause withdraw) := by
  obtain ⟨i, hx, hi⟩ := State.listRemove_spec h removal
  rw [if_neg (by simp [offered])] at hi
  unfold State.endOffer
  rw [hi]
  dsimp only
  generalize hs1 : ((s.modFar fun f => { f with list := f.list.eraseP fun a => a.seat = x }).notify
    (.listRemove x removal i (s.far.list.eraseP fun a => a.seat = x).length)) = s1
  have f1 : s1.far = { s.far with list := s.far.list.eraseP fun a => a.seat = x } := by rw [← hs1]; simp
  have t1 : s1.trunks = s.trunks := by rw [← hs1]; simp
  have b1 : s1.stb = s.stb := by rw [← hs1]; simp
  have l1 : s1.slm = s.slm := by rw [← hs1]; simp
  have m1 : s1.fmx = s.fmx := by rw [← hs1]; simp
  have o1 : s.onlyNotices [.listRemove x removal i (s.far.list.eraseP fun a => a.seat = x).length] s1 := by
    rw [← hs1]
    refine State.onlyNotices_after ?_ (State.onlyNotices_notify _ _)
    exact State.onlyNotices_of rfl rfl rfl rfl rfl rfl rfl rfl rfl
  generalize hs2 : (if withdraw = true then s1.place x .withdraw else s1) = s2
  have f2 : s2.far = s1.far := by rw [← hs2]; split <;> simp
  have t2 : s2.trunks = (if withdraw then s.place x .withdraw else s).trunks := by
    rw [← hs2]
    split
    · exact State.place_trunks_congr _ t1 (by simp [State.seatRec, b1])
    · exact t1
  have b2 : s2.stb = s.stb := by rw [← hs2]; split <;> simp [b1]
  have l2 : s2.slm = s.slm := by rw [← hs2]; split <;> simp [l1]
  have m2 : s2.fmx = s.fmx := by rw [← hs2]; split <;> simp [m1]
  have o2 : s.onlyNotices [.listRemove x removal i (s.far.list.eraseP fun a => a.seat = x).length] s2 := by
    rw [← hs2]
    split
    · exact State.onlyNotices_then o1 (State.onlyNotices_place _ _ _)
    · exact o1
  have ch : ∀ d, s2.chan d = s.chan d := by intro d; simp [State.chan, f2, f1]
  have hcc : s2.chanOf x = some c := by
    unfold State.chanOf at *
    simpa only [ch] using hc
  rw [hcc]
  dsimp only
  obtain ⟨k1, k2, k3, k4, k5, k6, k7, k8⟩ := s2.freeChannel_spec c cause (by rw [ch, hs]; simp)
  rw [ch, hs] at k4 k5
  have seat : (s2.chan c).seat = some x := by
    have := List.find?_some hcc
    simp_all
  have off : (s2.chan c).state = .offered := by rw [ch, hs]
  rw [seat] at k8
  simp only [State.freeCause, State.closingClock, off, Option.map_some, Option.toList_some] at k8
  refine ⟨k1, fun d hd => (k2 d hd).trans (ch d), ?_, ?_, ?_, k7.trans m2, k6.trans t2, i, hx, State.onlyNotices_trans o2 k8⟩
  · rw [k3, f2, f1]
  · rw [k4]; simpa using b2
  · rw [k5]; simpa using l2

/-! ### Freeing, closing and the hold level in the words of the statements -/

theorem State.leaveHold_eq (s : State) (x : Seat) : s.leaveHold x = s.memberLeft x := rfl
theorem State.clearHolder_eq (s : State) (x : Seat) : s.clearHolder x = s.holderLeft x := rfl
theorem State.levelChanged_eq (s : State) : s.levelChanged = s.levelRead := rfl

/-- Clearing a lost seat is its floor state's clearing, then the hold set and list control, then the level met (R4, R122). -/
theorem State.loseSeat_eq (s : State) (x : Seat) : s.loseSeat x = (s.clearLost x).holdChanged s.far.holdLevel := rfl

/-- An OPEN channel freed (R63). -/
theorem State.freed_of_opened {s : State} {c : Fin 12} {x : Seat} (cause : CloseCause) (state : (s.chan c).state = .opened)
    (seat : (s.chan c).seat = some x) :
    ((s.withClock c x).withoutWindow c).freed c s.far.list s.trunks [.chClose c x cause (s.slmOf c).clock] (s.freeChannel c cause) := by
  obtain ⟨h1, h2, h3, h4, h5, h6, h7, h8⟩ := s.freeChannel_spec c cause (by simp [state])
  simp only [state, seat, State.freeCause, State.closingClock, Option.map_some, Option.toList_some, reduceCtorEq, if_false] at h4 h5 h8
  refine ⟨h1, h2, h3.trans rfl, h6, ?_, ?_, h7,
    State.onlyNotices_after (b := s) (State.onlyNotices_of rfl rfl rfl rfl rfl rfl rfl rfl rfl) h8⟩
  · rw [h4]; simp [State.addClock, seat, State.withClock, State.withoutWindow, satAdd]
  · rw [h5]; rfl

/-- A HELD channel freed (R63). -/
theorem State.freed_of_held {s : State} {c : Fin 12} {x : Seat} (cause : CloseCause) (state : (s.chan c).state = .held)
    (seat : (s.chan c).seat = some x) :
    (s.withClock c x).freed c s.far.list s.trunks [.chClose c x cause (s.slmOf c).clock] (s.freeChannel c cause) := by
  obtain ⟨h1, h2, h3, h4, h5, h6, h7, h8⟩ := s.freeChannel_spec c cause (by simp [state])
  simp only [state, seat, State.freeCause, State.closingClock, Option.map_some, Option.toList_some, reduceCtorEq, if_false] at h4 h5 h8
  refine ⟨h1, h2, h3.trans rfl, h6, ?_, ?_, h7,
    State.onlyNotices_after (b := s) (State.onlyNotices_of rfl rfl rfl rfl rfl rfl rfl rfl rfl) h8⟩
  · rw [h4]; simp [State.addClock, seat, State.withClock, satAdd]
  · rw [h5]; rfl

/-- An OPENING channel freed: CH_CLOSE carries clock 0 (R63, R70). -/
theorem State.freed_of_opening {s : State} {c : Fin 12} {x : Seat} (cause : CloseCause) (state : (s.chan c).state = .opening)
    (seat : (s.chan c).seat = some x) : s.freed c s.far.list s.trunks [.chClose c x cause 0] (s.freeChannel c cause) := by
  obtain ⟨h1, h2, h3, h4, h5, h6, h7, h8⟩ := s.freeChannel_spec c cause (by simp [state])
  simp only [state, seat, State.freeCause, State.closingClock, Option.map_some, Option.toList_some] at h4 h5 h8
  exact ⟨h1, h2, h3.trans rfl, h6, by simpa using h4, by simpa using h5, h7, h8⟩

/-- A CLOSING channel freed: CH_CLOSE carries the cause it recorded and its clock (R61, R63, R70). -/
theorem State.freed_of_closing {s : State} {c : Fin 12} {x : Seat} (cause : CloseCause) (state : (s.chan c).state = .closing)
    (seat : (s.chan c).seat = some x) :
    s.freed c s.far.list s.trunks [.chClose c x ((s.chan c).closeCause.getD cause) (s.slmOf c).clock] (s.freeChannel c cause) := by
  obtain ⟨h1, h2, h3, h4, h5, h6, h7, h8⟩ := s.freeChannel_spec c cause (by simp [state])
  simp only [state, seat, State.freeCause, State.closingClock, Option.map_some, Option.toList_some] at h4 h5 h8
  exact ⟨h1, h2, h3.trans rfl, h6, by simpa using h4, by simpa using h5, h7, h8⟩

/-- An offer ended (R84, R87, R89, R90). -/
theorem State.freed_of_endOffer {s : State} {x : Seat} {e : Entry} {i : Nat} {c : Fin 12} (entry : s.entryOf x = some e)
    (offered : e.state = .offered) (index : s.listIndex x = some i) (chan : s.chanOf x = some c) (state : (s.chan c).state = .offered)
    (removal : RemovalCause) (cause : CloseCause) (withdraw : Bool) :
    s.freed c (s.far.list.eraseIdx i) (if withdraw then s.place x .withdraw else s).trunks
      [.listRemove x removal i (s.far.list.length - 1), .chClose c x cause 0] (s.endOffer x removal cause withdraw) := by
  obtain ⟨h1, h2, h3, h4, h5, h6, h7, j, hj, h8⟩ := State.endOffer_spec entry offered chan state removal cause withdraw
  obtain ⟨k, hk, he⟩ := State.entryOf_index entry
  obtain rfl : i = j := by rw [index] at hj; exact Option.some.inj hj
  obtain rfl : i = k := by rw [index] at hk; exact Option.some.inj hk
  have hi : i < s.far.list.length := by
    unfold State.listIndex at index
    exact (List.findIdx?_eq_some_iff_getElem.mp index).1
  have hl : (s.far.list.eraseP fun a => a.seat = x).length = s.far.list.length - 1 := by
    rw [← he, List.length_eraseIdx_of_lt hi]
  rw [hl] at h8
  exact ⟨h1, h2, by rw [he]; exact h3, h7, h4, h5, h6, h8⟩

/-- A close request on an OPEN channel (R60). -/
theorem State.closingOf_opened {s : State} {c : Fin 12} {x : Seat} (cause : CloseCause) (state : (s.chan c).state = .opened)
    (seat : (s.chan c).seat = some x) : s.closingOf c x cause (s.closeRequest c cause) := by
  rw [s.closeRequest_opened c cause seat state]
  refine ⟨?_, fun d hd => ?_, rfl, rfl, rfl, ?_, ?_, State.onlyNotices_of rfl rfl rfl rfl rfl rfl rfl rfl rfl⟩
  · simp [State.chan, State.modChan]
  · simp [State.chan, State.modChan, Ne.symm hd]
  · simp [state, State.withoutWindow, State.abortWindow, State.modSlm, SlmChan.noWindow]
  · simp [state, State.withClock, satAdd]

/-- A close request on a HELD channel (R60). -/
theorem State.closingOf_held {s : State} {c : Fin 12} {x : Seat} (cause : CloseCause) (state : (s.chan c).state = .held)
    (seat : (s.chan c).seat = some x) : s.closingOf c x cause (s.closeRequest c cause) := by
  rw [s.closeRequest_held c cause seat state]
  refine ⟨?_, fun d hd => ?_, rfl, rfl, rfl, ?_, ?_, State.onlyNotices_of rfl rfl rfl rfl rfl rfl rfl rfl rfl⟩
  · simp [State.chan, State.modChan]
  · simp [State.chan, State.modChan, Ne.symm hd]
  · simp [state]
  · simp [state, State.withClock, satAdd]

/-! ### A rise of the hold level (R119) -/

/-- Channel `c` is met by a rise of the hold level: it is OPEN and below it (R119). -/
def State.struck (s : State) (c : Fin 12) : Bool := decide ((s.chan c).state = .opened) && s.belowHold c

/-- What a rise makes of a channel it strikes (R119). -/
def State.struckChan (s : State) (c : Fin 12) : Channel :=
  if s.struck c then
    match s.mge.settings.priorityAction with
    | .mute => { s.chan c with state := .held }
    | .close => { s.chan c with state := .closing, closeCause := some .priority }
  else s.chan c

/-- What a rise makes of a channel's window: that of one it strikes is aborted (R119, R146). -/
def State.struckSlm (s : State) (c : Fin 12) : SlmChan := if s.struck c then (s.slmOf c).noWindow else s.slmOf c

/-- The notice a rise queues at a channel: CH_HELD of one it strikes under priority action MUTE (R70, R119). -/
def State.struckNotice (s : State) (c : Fin 12) : Option Notice :=
  if s.mge.settings.priorityAction = .mute ∧ (s.chan c).state = .opened ∧ s.belowHold c = true then (s.chan c).seat.map (.chHeld c) else none

/-- What a rise does at one channel (R119). -/
theorem State.riseAt_spec (s : State) (c : Fin 12) :
    (s.riseAt c).far = { s.far with channels := vset s.far.channels c (s.struckChan c) }
      ∧ (s.riseAt c).slm = vset s.slm c (s.struckSlm c)
      ∧ (s.riseAt c).trunks = (s.risePlacedAt s c).trunks ∧ (s.riseAt c).stb = (s.riseClockedAt s c).stb ∧ (s.riseAt c).fmx = s.fmx
      ∧ s.onlyNotices (s.struckNotice c).toList (s.riseAt c) := by
  have hset : vset s.far.channels c (s.chan c) = s.far.channels := vset_vget _ _
  have hslm : vset s.slm c (s.slmOf c) = s.slm := vset_vget _ _
  unfold State.riseAt State.struckChan State.struckSlm State.struckNotice State.risePlacedAt State.riseClockedAt State.struck
  cases hb : s.belowHold c
  · simp only [hset, hslm, Bool.false_eq_true, ↓reduceIte, Bool.and_false, and_false, false_and]
    refine ⟨trivial, trivial, ?_, ?_, trivial, s.onlyNotices_refl⟩
    · split <;> rfl
    · split <;> rfl
  · cases hs : (s.chan c).state
    case opened =>
      cases hx : (s.chan c).seat with
      | none =>
        cases hp : s.mge.settings.priorityAction
        · have e : s.holdChannel c = (s.modChan c fun ch => { ch with state := .held }).abortWindow c := by
            simp [State.holdChannel, State.notifyChan, hx]
          simp only [e, decide_true, Bool.and_self, ↓reduceIte, and_self, Option.map_none, Option.toList_none]
          exact ⟨by trivial, by trivial, by trivial, by trivial, by trivial, State.onlyNotices_of rfl rfl rfl rfl rfl rfl rfl rfl rfl⟩
        · have e : s.closeRequest c .priority
              = (s.modChan c fun ch => { ch with state := .closing, closeCause := some .priority }).abortWindow c := by
            simp [State.closeRequest, State.enterClosing, State.addClock, hs, hx]
          simp only [e, decide_true, Bool.and_self, ↓reduceIte, and_self, Option.toList_none, reduceCtorEq, false_and]
          exact ⟨by trivial, by trivial, by trivial, by trivial, by trivial, State.onlyNotices_of rfl rfl rfl rfl rfl rfl rfl rfl rfl⟩
      | some x =>
        cases hp : s.mge.settings.priorityAction
        · have e : s.holdChannel c = State.notify (.chHeld c x) { s with
              far := (s.modChan c fun ch => { ch with state := .held }).far
              slm := (s.abortWindow c).slm
              trunks := (s.place x .mute).trunks } := by
            have k : ((s.modChan c fun ch => { ch with state := .held }).place x .mute).trunks = (s.place x .mute).trunks :=
              State.place_trunks_congr .mute rfl rfl
            unfold State.holdChannel State.notifyChan
            rw [hx]
            dsimp only
            rw [State.place_eq, k]
            have hw : ((State.abortWindow c { s.modChan c (fun ch => { ch with state := .held }) with
                trunks := (s.place x .mute).trunks }).chan c).seat = some x := by
              simpa [State.chan, State.abortWindow, State.modChan] using hx
            rw [hw]
            rfl
          simp only [e, decide_true, Bool.and_self, ↓reduceIte, and_self, Option.map_some, Option.toList_some, reduceCtorEq, false_and,
            State.notify_far, State.notify_slm, State.notify_trunks, State.notify_stb, State.notify_fmx]
          refine ⟨by trivial, by trivial, by trivial, by trivial, by trivial, State.onlyNotices_after ?_ (State.onlyNotices_notify _ _)⟩
          exact State.onlyNotices_of rfl rfl rfl rfl rfl rfl rfl rfl rfl
        · simp only [s.closeRequest_opened c .priority hx hs, decide_true, Bool.and_self, ↓reduceIte, and_self, Option.toList_none, reduceCtorEq, false_and]
          exact ⟨by trivial, by trivial, by trivial, by trivial, by trivial, State.onlyNotices_of rfl rfl rfl rfl rfl rfl rfl rfl rfl⟩
    case held =>
      cases hx : (s.chan c).seat with
      | none => simp [hset, hslm, State.onlyNotices_refl]
      | some x =>
        have hu : s.unmutePending x = true ↔ s.unsent x = some .unmute ∨ s.inFlightFor x = some .unmute := by simp [State.unmutePending]
        simp only [hu, hset, hslm, decide_false, Bool.false_and, Bool.false_eq_true, ↓reduceIte, true_and, reduceCtorEq, false_and, and_false, Option.toList_none]
        split
        · exact ⟨by simp, by simp, by simp, by simp, State.onlyNotices_place _ _ _⟩
        · exact ⟨rfl, rfl, rfl, rfl, s.onlyNotices_refl⟩
    all_goals
      simp [hset, hslm, State.onlyNotices_refl]
      try (split <;> rfl)

/-- What a rise places at a channel depends on the trunks and on which seats are PRESENT. -/
theorem State.risePlacedAt_congr {s v a : State} {c : Fin 12} (chan : v.chan c = s.chan c) (below : v.belowHold c = s.belowHold c)
    (settings : v.mge.settings = s.mge.settings) (trunks : v.trunks = a.trunks)
    (present : ∀ x, (v.seatRec x).availability = (a.seatRec x).availability) :
    (v.risePlacedAt v c).trunks = (s.risePlacedAt a c).trunks := by
  have unsent : ∀ x, v.unsent x = a.unsent x := by intro x; unfold State.unsent State.tpc; rw [trunks]
  have flight : ∀ x, v.inFlightFor x = a.inFlightFor x := by intro x; unfold State.inFlightFor State.tpc; rw [trunks]
  unfold State.risePlacedAt
  simp only [unsent, flight, chan, below, settings]
  split <;> [split; split; skip]
  all_goals first | exact State.place_trunks_congr _ trunks (present _) | exact trunks

@[simp] theorem State.risePlacedAt_stb (s a : State) (c : Fin 12) : (s.risePlacedAt a c).stb = a.stb := by
  unfold State.risePlacedAt
  split <;> [split; split; skip] <;> simp

/-- The clock a rise adds at a channel depends on the Seat Table and on that clock. -/
theorem State.riseClockedAt_congr {s v b : State} {c : Fin 12} (chan : v.chan c = s.chan c) (below : v.belowHold c = s.belowHold c)
    (settings : v.mge.settings = s.mge.settings) (stb : v.stb = b.stb) (slm : v.slmOf c = b.slmOf c) :
    (v.riseClockedAt v c).stb = (s.riseClockedAt b c).stb := by
  unfold State.riseClockedAt State.withClock State.modSeat State.seatRec
  rw [chan, below, settings, stb, slm]
  split <;> [split; skip] <;> simp [stb]

@[simp] theorem State.riseClockedAt_slm (s b : State) (c : Fin 12) : (s.riseClockedAt b c).slm = b.slm := by
  unfold State.riseClockedAt
  split <;> [split; skip] <;> rfl

/-- Adding clocks leaves every seat's availability. -/
theorem State.riseClockedAt_availability (s b : State) (c : Fin 12) (x : Seat) :
    ((s.riseClockedAt b c).seatRec x).availability = (b.seatRec x).availability := by
  unfold State.riseClockedAt
  split <;> [split; skip]
  · rename_i y _ _
    simp only [State.withClock, State.modSeat, State.seatRec, vget_vset]
    split <;> simp_all
  all_goals rfl

@[simp] theorem State.notices_settings (s : State) (ns : List Notice) : (s.notices ns).mge.settings = s.mge.settings := by
  induction ns generalizing s with
  | nil => rfl
  | cons n ns ih => rw [State.notices_cons, ih, State.notify_settings]

/-- What a rise does over a list of channels, each met once (R119). -/
theorem State.riseOver (s : State) (l : List (Fin 12)) (once : l.Nodup) :
    (l.foldl State.riseAt s).far = { s.far with channels := (l.foldl State.riseAt s).far.channels }
      ∧ (∀ c, (l.foldl State.riseAt s).chan c = if c ∈ l then s.struckChan c else s.chan c)
      ∧ (∀ c, (l.foldl State.riseAt s).slmOf c = if c ∈ l then s.struckSlm c else s.slmOf c)
      ∧ (l.foldl State.riseAt s).trunks = (l.foldl s.risePlacedAt s).trunks
      ∧ (l.foldl State.riseAt s).stb = (l.foldl s.riseClockedAt s).stb
      ∧ (l.foldl s.risePlacedAt s).stb = s.stb ∧ (l.foldl s.riseClockedAt s).slm = s.slm
      ∧ (∀ x, ((l.foldl s.riseClockedAt s).seatRec x).availability = (s.seatRec x).availability)
      ∧ (l.foldl State.riseAt s).fmx = s.fmx ∧ s.onlyNotices (l.filterMap s.struckNotice) (l.foldl State.riseAt s) := by
  induction l using List.reverseRecOn with
  | nil => simp [State.onlyNotices_refl]
  | append_singleton l c ih =>
    rw [List.nodup_append] at once
    obtain ⟨h1, h2, h3, h4, h5, h6, h7, h8, h9, h10⟩ := ih once.1
    have hc : c ∉ l := fun h => once.2.2 c h c (by simp) rfl
    simp only [List.foldl_append, List.foldl_cons, List.foldl_nil, List.filterMap_append]
    generalize l.foldl State.riseAt s = v at *
    generalize l.foldl s.risePlacedAt s = a at *
    generalize l.foldl s.riseClockedAt s = b at *
    have chan : v.chan c = s.chan c := by rw [h2, if_neg hc]
    have slm : v.slmOf c = s.slmOf c := by rw [h3, if_neg hc]
    have below : v.belowHold c = s.belowHold c := by unfold State.belowHold; rw [chan, h1]
    have settings : v.mge.settings = s.mge.settings := by rw [h10.2.2.2.2.2.2.2.2, State.notices_settings]
    have sc : v.struckChan c = s.struckChan c := by unfold State.struckChan State.struck; rw [chan, below, settings]
    have ss : v.struckSlm c = s.struckSlm c := by unfold State.struckSlm State.struck; rw [chan, below, slm]
    have sn : v.struckNotice c = s.struckNotice c := by unfold State.struckNotice; rw [chan, below, settings]
    obtain ⟨k1, k2, k3, k4, k5, k6⟩ := v.riseAt_spec c
    refine ⟨?_, fun d => ?_, fun d => ?_, ?_, ?_, ?_, ?_, fun x => ?_, ?_, ?_⟩
    · rw [k1, h1]
    · have : (v.riseAt c).chan d = if c = d then v.struckChan c else v.chan d := by
        simp only [State.chan, k1, vget_vset]
      rw [this, sc, h2]
      by_cases e : c = d
      · subst e; simp
      · simp [e, Ne.symm e]
    · have : (v.riseAt c).slmOf d = if c = d then v.struckSlm c else v.slmOf d := by
        simp only [State.slmOf, k2, vget_vset]
      rw [this, ss, h3]
      by_cases e : c = d
      · subst e; simp
      · simp [e, Ne.symm e]
    · rw [k3]
      refine State.risePlacedAt_congr chan below settings h4 fun x => ?_
      have e1 : v.seatRec x = b.seatRec x := by unfold State.seatRec; rw [h5]
      have e2 : a.seatRec x = s.seatRec x := by unfold State.seatRec; rw [h6]
      rw [e1, e2, h8]
    · rw [k4]
      refine State.riseClockedAt_congr chan below settings h5 ?_
      rw [slm]; unfold State.slmOf; rw [h7]
    · simp [h6]
    · simp [h7]
    · rw [State.riseClockedAt_availability, h8]
    · rw [k5, h9]
    · have := State.onlyNotices_trans h10 k6
      rw [sn] at this
      cases hn : s.struckNotice c <;> simpa [hn] using this

/-- A rise of the hold level does what the statements say it does (R119). -/
theorem State.rise_risen (s : State) : s.risen s.rise := by
  obtain ⟨h1, h2, h3, h4, h5, -, -, -, h9, h10⟩ := s.riseOver allChans (by decide)
  have mem : ∀ c : Fin 12, c ∈ allChans := by decide
  unfold State.rise State.risen
  generalize allChans.foldl State.riseAt s = u at *
  refine ⟨h1, fun c h => ?_, fun c ho hb => ?_, h4, h5, h9, fun hm => ?_, h10⟩
  · have : s.struck c = false := by rcases h with h | h <;> simp [State.struck, h]
    exact ⟨by rw [h2]; simp [mem, State.struckChan, this], by rw [h3]; simp [mem, State.struckSlm, this]⟩
  · have : s.struck c = true := by simp [State.struck, ho, hb]
    refine ⟨?_, by rw [h3]; simp [mem, State.struckSlm, this, SlmChan.noWindow]⟩
    rw [h2]
    cases hp : s.mge.settings.priorityAction <;> simp [mem, State.struckChan, this, hp]
  · have idle : ∀ (l : List (Fin 12)) (b : State), l.foldl s.riseClockedAt b = b := by
      intro l
      induction l with
      | nil => intro b; rfl
      | cons c l ih =>
        intro b
        have e : s.riseClockedAt b c = b := by unfold State.riseClockedAt; split <;> simp [hm]
        rw [List.foldl_cons, e, ih]
    rw [h5, idle]

/-- A rise of the hold level leaves no delegate below it OPEN (R117, R119). -/
theorem State.risen_noneOpen {s u : State} (h : s.risen u) (c : Fin 12) (l : Fin 8) (opened : (u.chan c).state = .opened)
    (kind : (u.chan c).kind = some .delegate) (level : (u.chan c).level = some l) : s.far.holdLevel ≤ l := by
  obtain ⟨-, same, struck, -⟩ := h
  by_cases hs : (s.chan c).state = .opened ∧ s.belowHold c = true
  · have e := (struck c hs.1 hs.2).1
    rw [e] at opened
    cases hp : s.mge.settings.priorityAction <;> simp [hp] at opened
  · have e := (same c (by by_cases k : (s.chan c).state = .opened <;> simp_all)).1
    rw [e] at opened kind level
    have hb : s.belowHold c = false := by cases q : s.belowHold c <;> simp_all
    simpa [State.belowHold, kind, level] using hb

/-! ### A fall of the hold level (R121) -/

/-- An UNMUTE placed drops a command exactly where the seat's unsent command is MUTE (R32 row 3). -/
theorem enqueue_unmute_dropped (pos : Fin 120) (q : List QEntry) :
    (enqueue pos .unmute q).2 = .muteDropped ↔ (q.find? fun e => e.target = some pos).map QEntry.cmd = some .mute := by
  induction q with
  | nil => simp [enqueue]
  | cons e q ih =>
    by_cases h : e.target = some pos
    · obtain ⟨t, cmd⟩ := e
      simp only [enqueue]
      cases cmd <;> simp_all [coalesce, Cmd.isIndication, Cmd.isFloor]
    · simpa [enqueue, h] using ih

/-- An UNMUTE placed for a seat drops a command exactly where it is not discarded and the unsent command is MUTE (R31, R32). -/
theorem State.placeReport_unmute_dropped (s : State) (x : Seat) : (s.placeReport x .unmute).2 = .muteDropped ↔
    s.unsent x = some .mute ∧ (s.tpc x.trunk).link = .up ∧ (s.seatRec x).availability = .present := by
  unfold State.placeReport
  split
  · rename_i h
    simp only [enqueue_unmute_dropped, h, and_true]
    rfl
  · rename_i h
    simp only [reduceCtorEq, false_iff]
    exact fun k => h k.2

/-- A placement leaves what is in flight. -/
theorem State.place_inFlightFor (s : State) (x y : Seat) (cmd : Cmd) : (s.place x cmd).inFlightFor y = s.inFlightFor y := by
  have h : ((s.place x cmd).tpc y.trunk).inFlight = (s.tpc y.trunk).inFlight := by
    unfold State.place State.placeReport
    split
    · simp only [State.tpc, State.modTpc, vget_vset]
      split <;> simp_all
    · rfl
  unfold State.inFlightFor
  rw [h]

/-- Queuing a notice leaves the Seat Table alone, whichever it is. -/
theorem State.notify_setStb (s : State) (n : Notice) (stb : Stb) : { s.notify n with stb := stb } = State.notify n { s with stb := stb } := by
  unfold State.notify
  simp only [apply_ite (fun a : State => { a with stb := stb })]
  rfl

/-- A HELD channel of a seat enters OPEN: its window starts, CH_RESUMED is queued, and a first OPEN counts as a grant (R59, R121, R145). -/
theorem State.resume_eq {s : State} {c : Fin 12} {x : Seat} (seat : (s.chan c).seat = some x) : s.resume c =
    State.notify (.chResumed c x) { s with
      far := { s.far with channels := vset s.far.channels c { s.chan c with state := .opened, reachedOpen := some true } }
      slm := if s.mge.settings.levelMonitor then
          vset s.slm c { s.slmOf c with progress := some 0, exponent := some s.mge.settings.windowExponent, sum := 0 }
        else s.slm
      stb := if (s.chan c).reachedOpen = some false then (s.modSeat x fun r => { r with grants := min 65535 (r.grants + 1) }).stb else s.stb } := by
  unfold State.resume
  simp only
  generalize hv : State.startWindow c (s.modChan c fun ch => { ch with state := .opened, reachedOpen := some true }) = v
  have e : v = { s with
      far := { s.far with channels := vset s.far.channels c { s.chan c with state := .opened, reachedOpen := some true } }
      slm := if s.mge.settings.levelMonitor then
          vset s.slm c { s.slmOf c with progress := some 0, exponent := some s.mge.settings.windowExponent, sum := 0 }
        else s.slm } := by
    rw [← hv]
    unfold State.startWindow
    simp only [State.modChan_mge]
    by_cases hm : s.mge.settings.levelMonitor = true
    · simp only [hm, ↓reduceIte]
      rfl
    · simp only [hm, Bool.false_eq_true, ↓reduceIte]
      rfl
  have hx : (v.chan c).seat = some x := by
    rw [e]
    simp only [State.chan, vget_vset_self]
    exact seat
  unfold State.notifyChan
  rw [hx]
  simp only
  split
  · unfold State.countGrant
    rw [State.notify_chan, hx]
    simp only [State.modSeat, State.seatRec, State.notify_stb]
    rw [State.notify_setStb, e]
    rfl
  · rw [e]

/-- A fall meets each channel as the statements say it (R121). -/
theorem State.fallAt_eq (s : State) (c : Fin 12) : s.fallAt c = s.unmutedAt c := by
  unfold State.fallAt State.unmutedAt
  split <;> rename_i hs hx
  · rename_i x
    simp only [hs, hx]
    refine ite_congr rfl (fun _ => rfl) fun _ => ?_
    have hp := s.placeReport_unmute_dropped x
    have hf := s.place_inFlightFor x x .unmute
    unfold State.place at hf
    unfold State.placeUnmute
    simp only [hf, hp]
    by_cases h : (s.unsent x = some .mute ∧ (s.tpc x.trunk).link = .up ∧ (s.seatRec x).availability = .present)
        ∧ s.inFlightFor x ≠ some .unmute
    · rw [if_pos h, if_pos ⟨h.1.1, h.2, h.1.2⟩]
      have e := s.place_eq x .unmute
      unfold State.place at e ⊢
      generalize (s.placeReport x .unmute).1 = v at e
      have hv : v.chan c = s.chan c := by rw [e]; rfl
      rw [State.resume_eq (hv ▸ hx), hv, e]
      simp only [hx]
      rfl
    · rw [if_neg h, if_neg fun k => h ⟨⟨k.1, k.2.2⟩, k.2.1⟩]
      rfl
  · first | rfl | (split <;> simp_all)

/-- A fall meets the channels in ascending number, and owes a promotion (R121). -/
theorem State.fall_eq (s : State) : s.fall = s.fallen := by
  have h : State.fallAt = State.unmutedAt := funext fun a => funext fun c => a.fallAt_eq c
  unfold State.fall State.fallen
  rw [h]
  rfl

/-! ### The end of a handling (R109) -/

theorem State.settle_eq (s : State) (h : s.noPromotionOwed) : s.settle = s := by
  unfold State.settle
  rw [if_neg]
  rcases h with h | h
  · cases q : s.mge.batch <;> simp_all
  · simp [h]

end Sys2Proof.Machine
end

