-- ==== Sys2Proof/Laws/Commands.lean ====
section
/-! SUPPORT. What running a record, taking a seat event and appending a command come to, said once, for proofs about single commands. -/

namespace Sys2Proof.Machine

/-! ### Records -/

/-- A record whose turn it is leaves its body's state, answered with the body's status and fields (R170). -/
theorem State.runRecord_eq {s : State} {i : Instr} (h : s.takes i) (kind : Byte) (body : State → Answer) :
    s.runRecord i kind body = s.afterRecord (body s).state kind (body s).status (body s).fields := by
  simp [State.runRecord, h.1, h.2, State.afterRecord]

/-! ### The batch of records of their own (log entry 3) -/

/-- With the scope closed, or a record of an accepted packet waiting, no batch of records of their own ends. -/
theorem State.endOwnBatch_keep {s : State} (h : s.mge.batch = none ∨ s.nextRecord ≠ none) : s.endOwnBatch = s := by
  rcases h with h | h
  · simp [State.endOwnBatch, h]
  · simp [State.endOwnBatch, h]

/-- An open scope with no accepted record waiting closes, with the promotion run it owes. -/
theorem State.endOwnBatch_end {s : State} (h : s.mge.batch ≠ none) (h' : s.nextRecord = none) :
    s.endOwnBatch = State.settle { s with mge := { s.mge with batch := none } } := by
  have : s.mge.batch.isSome = true := Option.isSome_iff_ne_none.mpr h
  simp [State.endOwnBatch, h', this, State.endBatch, State.modMge]

/-- A packet that brings no record, or comes while no batch of records of their own is open, only takes its place (R169). -/
theorem State.takePlace_keep {s : State} {p : Place} (h : s.mge.batch = none ∨ s.nextRecord ≠ none ∨ p.waiting = []) :
    s.takePlace p = { s with hli := { s.hli with replyQueue := s.hli.replyQueue ++ [p] } } := by
  rcases h with h | h | h
  · simp [State.takePlace, State.endOwnBatch_keep (.inl h), State.modHli]
  · simp [State.takePlace, State.endOwnBatch_keep (.inr h), State.modHli]
  · simp [State.takePlace, Place.ready, h, State.modHli]

/-- A packet that brings records ends such a batch before it takes its place (R172). -/
theorem State.takePlace_end {s : State} {p : Place} (h : s.mge.batch ≠ none) (h' : s.nextRecord = none) (hp : p.waiting ≠ []) :
    s.takePlace p = (State.settle { s with mge := { s.mge with batch := none } }).modHli
      fun u => { u with replyQueue := u.replyQueue ++ [p] } := by
  simp [State.takePlace, Place.ready, hp, State.endOwnBatch_end h h']

/-! ### Seat events -/

/-- The command of a seat event runs the event. -/
theorem exec_seatEventOf (kind : EventKind) (t : Fin 4) (position : Fin 128) (serial : Fin 16) (arg : Byte) (s : State) :
    exec (seatEventOf kind t position serial arg) s = .next (s.seatEvent t position serial kind arg) := by
  cases kind <;> rfl

/-- An event that is taken is dispatched after its intake, and its handling ends (R26 to R29, R109). -/
theorem State.seatEvent_eq {t : Fin 4} {position : Fin 128} {serial : Fin 16} {s : State} {x : Seat} (h : s.takesEvent t position serial x)
    (kind : EventKind) (arg : Byte) : s.seatEvent t position serial kind arg
      = ((s.afterIntake x serial).dispatch (some kind) arg (decide ((s.seatRec x).availability = .present)) x).settle := by
  obtain ⟨hr, hl, hx, hs⟩ := h
  simp [State.seatEvent, hr, hl, State.takeEvent, hx, hs, State.afterIntake]

/-- A seat named by a position belongs to the trunk of the frame (R26). -/
theorem trunk_of_seatOfPosition {t : Fin 4} {position : Fin 128} {x : Seat} (h : seatOfPosition t position = some x) : x.trunk = t := by
  unfold seatOfPosition at h; split at h <;> simp at h; rw [← h]

@[simp] theorem State.afterIntake_far (s : State) (x : Seat) (serial : Fin 16) : (s.afterIntake x serial).far = s.far := by
  simp only [State.afterIntake, State.accept, State.setAvailability]; split <;> simp [State.modSeat, State.echo, State.modTpc]
@[simp] theorem State.afterIntake_slm (s : State) (x : Seat) (serial : Fin 16) : (s.afterIntake x serial).slm = s.slm := by
  simp only [State.afterIntake, State.accept, State.setAvailability]; split <;> simp [State.modSeat, State.echo, State.modTpc]
@[simp] theorem State.afterIntake_fmx (s : State) (x : Seat) (serial : Fin 16) : (s.afterIntake x serial).fmx = s.fmx := by
  simp only [State.afterIntake, State.accept, State.setAvailability]; split <;> simp [State.modSeat, State.echo, State.modTpc]
@[simp] theorem State.afterIntake_settings (s : State) (x : Seat) (serial : Fin 16) :
    (s.afterIntake x serial).mge.settings = s.mge.settings := by
  simp only [State.afterIntake, State.accept, State.setAvailability]; split <;> simp [State.modSeat, State.echo, State.modTpc]
@[simp] theorem State.afterIntake_batch (s : State) (x : Seat) (serial : Fin 16) : (s.afterIntake x serial).mge.batch = s.mge.batch := by
  simp only [State.afterIntake, State.accept, State.setAvailability]; split <;> simp [State.modSeat, State.echo, State.modTpc]
@[simp] theorem State.afterIntake_trunks (s : State) (x : Seat) (serial : Fin 16) : (s.afterIntake x serial).trunks = (s.echo x serial).trunks := by
  simp only [State.afterIntake, State.accept, State.setAvailability]; split <;> simp [State.modSeat, State.echo, State.modTpc]

/-- An accepted event makes its seat PRESENT and stores its serial (R27). -/
theorem State.afterIntake_stb (s : State) (x : Seat) (serial : Fin 16) : (s.afterIntake x serial).stb = { s.stb with
    seats := vset s.stb.seats (seatIndex x) { s.seatRec x with availability := .present, lastSerial := some serial } } := by
  simp only [State.afterIntake, State.accept, State.setAvailability]
  have : (s.echo x serial).seatRec x = s.seatRec x := rfl
  rw [this]
  split <;> simp [State.modSeat, State.echo, State.modTpc, State.seatRec, *]
  rename_i h; rw [← h]; rfl

/-- The record of a seat whose event was accepted (R27). -/
theorem State.afterIntake_seatRec (s : State) (x : Seat) (serial : Fin 16) :
    (s.afterIntake x serial).seatRec x = { s.seatRec x with availability := .present, lastSerial := some serial } := by
  simp [State.seatRec, State.afterIntake_stb]

/-- Intake changes no class. -/
theorem State.afterIntake_classOf (s : State) (x : Seat) (serial : Fin 16) : (s.afterIntake x serial).classOf x = s.classOf x := by
  simp only [State.classOf, State.afterIntake_seatRec]; simp [State.afterIntake_stb]

/-- Intake adds an echo to the seat's trunk (R28). -/
theorem State.afterIntake_tpc (s : State) (x : Seat) (serial : Fin 16) : (s.afterIntake x serial).tpc x.trunk
    = { s.tpc x.trunk with echoes := addEcho ⟨x.pos, serial⟩ (s.tpc x.trunk).echoes } := by
  simp [State.tpc, State.afterIntake_trunks, State.echo, State.modTpc]

/-- The floor state of a seat depends on FAR alone (R20). -/
theorem State.floorState_congr {a b : State} (h : a.far = b.far) (x : Seat) : a.floorState x = b.floorState x := by
  cases a; cases b; cases h; rfl

/-- Intake changes no floor state. -/
@[simp] theorem State.afterIntake_floorState (s : State) (x : Seat) (serial : Fin 16) :
    (s.afterIntake x serial).floorState x = s.floorState x := State.floorState_congr (s.afterIntake_far x serial) x

/-! ### Placements -/

/-- A command for a position without an unsent command joins the queue last (R31). -/
theorem enqueue_new (pos : Fin 120) (cmd : Cmd) (q : List QEntry) (h : (q.find? fun e => e.target = some pos) = none) :
    enqueue pos cmd q = (q ++ [⟨some pos, cmd⟩], .nothing) := by
  induction q with
  | nil => rfl
  | cons e q ih =>
    simp only [List.find?_cons] at h
    split at h
    · cases h
    · simp_all [enqueue]

end Sys2Proof.Machine
end

