-- ==== Sys2Proof/Tests/Slice0.lean ====
section
/-! SUPPORT. Small tests of single commands, decoding of written-out records, refusals of ill-formed commands, and for each statement with
hypotheses a state and operands that meet them. Expected values come from the rules named beside them. -/

set_option Elab.async false

namespace Sys2Proof.Tests

open Sys2Proof.Machine

/-! ### Small states -/

/-- Seats of trunk 0: two delegates, a chair; and a delegate of trunk 1. -/
def ann : Seat := ⟨0, 0⟩
def bob : Seat := ⟨0, 1⟩
def chair : Seat := ⟨0, 2⟩
def eve : Seat := ⟨1, 119⟩

/-- A seat's record made PRESENT in a class. -/
def seated (x : Seat) (cls : Fin 8) (s : State) : State := s.modSeat x fun r => { r with availability := .present, cls := cls }

/-- The engine running, trunk 0 UP, its three seats PRESENT, the chair in class 7. -/
def live : State :=
  seated chair 7 (seated bob 2 (seated ann 1 { State.reset with
    startUpHold := none
    trunks := vset State.reset.trunks 0 { Tpc.reset with link := .up, framesSent := 4 } }))

/-- A channel of a seat. -/
def chanFor (x : Seat) (slot : Fin 6) (level : Fin 8) (state : ChanState) : Channel :=
  ⟨state, some x, some x.trunk, some slot, some level, some .delegate, some .direct, some false, some (state = .opened ∨ state = .held), none, none⟩

/-- Put a channel into the floor table. -/
def holding (c : Fin 12) (ch : Channel) (s : State) : State :=
  (s.modChan c fun _ => ch).modFar fun f => { f with openSeq := f.openSeq ++ [c] }

/-- Ann OPEN on channel 0. -/
def speaking : State := holding 0 (chanFor ann 0 1 .opened) live

/-- A waiting entry of a seat. -/
def waitingFor (x : Seat) (level : Fin 8) : Entry := ⟨x, .delegate, level, .low, .seat, .waiting, none, none⟩

/-- Ann WAITING at the head of the list. -/
def queued : State := live.modFar fun f => { f with list := [waitingFor ann 1] }

/-- Ann OFFERED channel 0, her deadline at `d`. -/
def offering (d : Option Nat) : State :=
  (holding 0 { chanFor ann 0 1 .offered with mutedAtOpen := none, cause := some .promoted } live).modFar fun f =>
    { f with list := [{ waitingFor ann 1 with state := .offered, window := some 100, deadline := d }] }

/-- A command sent to a seat of trunk 0 and awaiting its acknowledgement. -/
def sent (x : Seat) (cmd : Cmd) (attempts : Nat) (s : State) : State :=
  s.modTpc 0 fun p => { p with inFlight := some ⟨x.pos, cmd, attempts, 0, .sent⟩ }

/-- Change the settings. -/
def withSettings (f : Settings → Settings) (s : State) : State := s.modMge fun m => { m with settings := f m.settings }

/-- The chair holds list control. -/
def controlled (s : State) : State := s.modFar fun f => { f with holder := some chair }

/-- The state a command leaves. -/
def after (i : Instr) (s : State) : State :=
  match exec i s with
  | .next t => t
  | .fault _ | .refused _ => s

/-- The status of the last reply. -/
def status (s : State) : Option Status := s.lastReply.map ReplyRecord.status

/-! ### Ill-formed commands (R194, 11.3, table 11.5) -/

theorem test_short_hall_frame_refused : Instr.wellFormed (.hallFrameValid [0xC3, 0, 0]) = false := by decide
theorem test_short_invalid_frame_refused : Instr.wellFormed (.hallFrameInvalid []) = false := by decide
theorem test_long_link_up_frame_refused : Instr.wellFormed (.hallLinkUp (List.replicate 9 0)) = false := by decide
theorem test_short_trunk_frame_refused : Instr.wellFormed (.trunkFrameGood 0 (List.replicate 23 0)) = false := by decide
theorem test_long_malformed_frame_refused : Instr.wellFormed (.trunkFrameMalformed 1 (List.replicate 25 0)) = false := by decide
theorem test_empty_trunk_up_frame_refused : Instr.wellFormed (.trunkUp 2 []) = false := by decide
theorem test_listed_kind_is_no_unknown_record : Instr.wellFormed (.unknownRecord 0x50) = false := by decide
theorem test_full_length_frames_accepted : Instr.wellFormed (.hallFrameValid (List.replicate 8 0)) = true
    ∧ Instr.wellFormed (.trunkFrameGood 0 (List.replicate 24 0)) = true ∧ Instr.wellFormed (.unknownRecord 0x60) = true := by decide

/-! ### Records written out from table 11.5 -/

theorem test_decode_load_seat : decodeRecord [0x01, 14, 0x0A, 0x00, 0x81, 0x00, 0x82, 0, 3, 0, 0, 0x00, 0x3C, 0]
    = .command (.loadSeat ⟨0x81, 0x82, none, some 3, none, some (0, 60)⟩) := by decide
theorem test_decode_set_class : decodeRecord [0x03, 14, 0x28, 5, 0, 0, 0, 0x01, 0x2C, 0, 0xFA, 0, 0, 0]
    = .command (.setClass ⟨5, none, none, none, some 300, none, some 0xFA, none, none⟩) := by decide
theorem test_decode_set_zone : decodeRecord [0x05, 14, 0x0F, 2, 1, 0x00, 0x01, 0x00, 0x78, 4, 0, 0, 0, 0]
    = .command (.setZone ⟨2, some 1, some 1, some 120, some 4⟩) := by decide
theorem test_decode_insert_request : decodeRecord [0x23, 14, 0x01, 0x05, 7, 0, 0, 0, 0, 0, 0, 0, 0, 0] = .command (.insertRequest 261 7) := by decide
theorem test_decode_clear_status : decodeRecord [0x55, 14, 0x20, 0x80, 0, 0, 0, 0, 0, 0, 0, 0, 0, 0] = .command (.clearStatus 0x2080) := by decide
theorem test_decode_set_floor_limit : ∃ p, decodeRecord (0x50 :: 30 :: 0x02 :: 0 :: 0 :: 0 :: 8 :: List.replicate 23 0) = .command (.setFloor p)
    ∧ p.floorLimit = some 8 ∧ p.mode = none ∧ p.autoCensus = none := ⟨_, rfl, by decide, by decide, by decide⟩
theorem test_decode_wrong_length : decodeRecord [0x27, 13, 0, 0, 0, 0, 0, 0, 0, 0, 0, 0, 0] = .badLength 0x27 := by decide
theorem test_decode_unknown_kind : decodeRecord [0x70, 2] = .command (.unknownRecord 0x70) := by decide
theorem test_table_gives_no_bits : decodeTableWord 8 5 = none := rfl

/-! ### Checks and tables (R154, R156, R157, R195) -/

theorem test_crc16_check_value : crc16 [0x31, 0x32, 0x33, 0x34, 0x35, 0x36, 0x37, 0x38, 0x39] = 0x29B1 := by decide +kernel
theorem test_crc8_check_value : crc8 [0x31, 0x32, 0x33, 0x34, 0x35, 0x36, 0x37, 0x38, 0x39] = 0xF4 := by decide +kernel
theorem test_products_of_R157 : gained 1 8192 = 1 ∧ gained (-1) 8192 = 0 ∧ gained 3 8192 = 2 ∧ gained (-3) 8192 = -1
    ∧ gained 20000 16384 = 20000 ∧ gained 32767 32768 = 65534 ∧ gained (-32768) 32768 = -65536 ∧ gained 32767 161 = 322 := by decide
theorem test_multipliers_of_R156 : multiplier 0 = 16384 ∧ multiplier (-12) = 8192 ∧ multiplier 12 = 32768 ∧ multiplier (-80) = 161 := by decide
theorem test_seat_codes : seatCode ann = 1 ∧ seatCode eve = 248 ∧ seatCode ⟨3, 119⟩ = 504 ∧ seatOfCode 121 = none ∧ seatOfCode 129 = some ⟨1, 0⟩ := by
  decide

/-! ### Resets and steps -/

theorem test_power_on_flags : (after .powerOnReset live).mge.flags = 0x0800 ∧ (after .powerOnReset live).startUpHold = some 40 := by decide +kernel
theorem test_brownout_cause : (after .brownoutReset live).mge.resetCause = .brownout := by decide +kernel
theorem test_pin_hold : (after .pinReset live).startUpHold = some 2 := by decide +kernel
theorem test_hold_end_aligns : (after .startUpHoldEnd State.reset).hli.link = .aligning := by decide +kernel
/-- The state a step leaves. -/
def stepped (s : State) : State :=
  match step s with
  | .next t => t
  | .fault _ | .refused _ => s
theorem test_step_runs_front : (stepped { live with pending := [.census 0, .next] }).pending = [.next]
    ∧ ((stepped { live with pending := [.census 0, .next] }).tpc 0).censusRunning = true := by decide +kernel
theorem test_reset_engine_frees : ((after .resetEngine speaking).chan 0).state = .free ∧ ((after .resetEngine speaking).tpc 0).queue = [⟨none, .allOff⟩] := by
  decide +kernel

/-! ### Hall link -/

/-- A valid hall frame with no lane byte. -/
def hallIdle (number : Byte) : List Byte :=
  let body := [number, 0, 0, 0, 0, 0]
  0xC3 :: (body ++ [crc8 body])

/-- The hall link UP, or ALIGNING with a run of 31 valid and 7 bad frame times. -/
def hallUp (bad : Nat) : State := live.modHli fun h => { h with link := .up, badRun := bad, attended := true, silenceTimer := some 4 }
def aligning (valid bad : Nat) : State := live.modHli fun h => { h with link := .aligning, validRun := valid, badRun := bad }

theorem test_hall_valid_aligns : (after (.hallFrameValid (hallIdle 9)) live).hli.link = .aligning
    ∧ (after (.hallFrameValid (hallIdle 9)) live).hli.lastFrame = some 9 := by decide +kernel
theorem test_hall_up_at_32 : (after (.hallLinkUp (hallIdle 0)) (aligning 31 0)).hli.link = .up := by decide +kernel
theorem test_hall_invalid_ends_run : (after (.hallFrameInvalid []) (aligning 20 0)).hli.validRun = 0 := by decide +kernel
theorem test_hall_missing_counts : (after .hallFrameMissing (hallUp 3)).hli.badRun = 4 := by decide +kernel
theorem test_hall_align_fail : (after .hallAlignFail (aligning 0 7)).hli.link = .down := by decide +kernel
theorem test_hall_link_lost : (after .hallLinkLost (hallUp 7)).hli.attended = false ∧ (after .hallLinkLost (hallUp 7)).hasFlag .fallback = true := by
  decide +kernel
theorem test_hall_send : ((after .hallFrameSend (hallUp 0)).hallOut.map fun f => (f.take 3, f.length)) = some ([0x3C, 0, 0xC0], 34) := by decide +kernel

/-! ### Time base, clocks, mixing -/

theorem test_mix_single_channel : (after .mixComputation (speaking.modFmx 0 fun m => { m with latest := 1000, fresh := true })).fmx.mixSample = 1000 := by
  decide +kernel
theorem test_decisecond_counts : ((after .decisecondExpiry speaking).slmOf 0).clock = 1 := by decide +kernel
theorem test_second_expiry : (after .secondExpiry (hallUp 0)).hli.silenceTimer = some 5 := by decide +kernel
/-- Ann at the end of an allowance of 1 second, with expiry action CLOSE. -/
def overtime : State := (speaking.modSeat ann fun r => { r with override := some 1 }).modSlm 0 fun m => { m with clock := 10 }
def overtimeClose : State := overtime.setStb { overtime.stb with classes := vset overtime.stb.classes 1 { ClassRec.reset 1 with action := .close } }
theorem test_speak_warning : ((after (.speakWarning 0) overtime).slmOf 0).warned = true
    ∧ (after (.speakWarning 0) overtime).unsent ann = some .warn := by decide +kernel
theorem test_speak_expiry_closes : ((after (.speakExpiry 0) overtimeClose).chan 0).closeCause = some .time
    ∧ ((after (.speakExpiry 0) overtimeClose).seatRec ann).speakingTotal = 10 := by decide +kernel
theorem test_offer_lapse : ((after (.offerLapse ann) (offering (some 1))).chan 0).state = .free
    ∧ (after (.offerLapse ann) (offering (some 1))).mge.lapsed = 1 := by decide +kernel
theorem test_silence_timer : (after .silenceTimerExpiry ((hallUp 0).modHli fun h => { h with silenceTimer := some 30 })).hli.attended = false := by
  decide +kernel
/-- A window of 256 samples with 255 taken; its sum so far is 25500. -/
def windowed : State := speaking.modSlm 0 fun m => { m with progress := some 255, exponent := some 8, sum := 25500 }
theorem test_level_window : ((after (.levelWindowComplete 0 (some 100)) windowed).slmOf 0).level = some 100
    ∧ ((after (.levelWindowComplete 0 (some 100)) windowed).slmOf 0).gateActive = false := by decide +kernel
/-- Silent for 100 windows in a class that releases on silence. -/
def silent : State :=
  let s := speaking.modSlm 0 fun m => { m with silenceCount := 100 }
  s.setStb { s.stb with classes := vset s.stb.classes 1 { ClassRec.reset 1 with silenceRelease := true } }
theorem test_silence_release : ((after (.silenceRelease 0) silent).chan 0).closeCause = some .silence := by decide +kernel

/-! ### Trunk frames -/

/-- An upstream trunk frame that answers downstream frame 255 (the last sent), with two event fields and an acknowledgement field. -/
def upFrame (event ack : List Byte) : List Byte :=
  let body := 0xFF :: (event ++ [0, 0, 0] ++ ack ++ List.replicate 13 0)
  0x5A :: (body ++ [crc8 body])
def quiet : List Byte := upFrame [0, 0, 0] [0, 0]
/-- Trunk 0 TRAINING with runs. -/
def training (good bad : Nat) : State := live.modTpc 0 fun p => { p with link := .training, goodRun := good, badRun := bad }
def down : State := live.modTpc 0 fun p => { p with link := .down }
def failing : State := (speaking.modFar fun f => { f with list := [waitingFor bob 2] }).modTpc 0 fun p => { p with badRun := 7 }

theorem test_trunk_first_good_frame : ((after (.trunkFrameGood 0 quiet) down).tpc 0).link = .training := by decide +kernel
theorem test_trunk_frame_carries_press :
    (after (.trunkFrameGood 0 (upFrame [0x81, 0x15, 0] [0, 0])) live).floorState ann = .opening := by decide +kernel
theorem test_trunk_malformed : ((after (.trunkFrameMalformed 0 []) live).tpc 0).badRun = 1 := by decide +kernel
theorem test_trunk_missing : ((after (.trunkFrameMissing 0) (training 9 0)).tpc 0).goodRun = 0 := by decide +kernel
theorem test_trunk_up_starts_census : ((after (.trunkUp 0 quiet) (training 63 0)).tpc 0).censusRunning = true := by decide +kernel
theorem test_training_fail : ((after (.trunkTrainingFail 0) (training 0 7)).tpc 0).link = .down := by decide +kernel
theorem test_trunk_lost : ((after (.trunkLinkLost 0) failing).chan 0).state = .free ∧ (after (.trunkLinkLost 0) failing).far.list = [] := by
  decide +kernel
theorem test_trunk_send_open : ((after (.trunkFrameSend 0) (after (.micPress 0 1 3 0) live)).trunkOut[0].map fun f => f.take 9)
    = some [0xA5, 0, 0x81, 0x30, 0, 0, 0x81, 0x01, 0x00] := by decide +kernel

/-! ### Seat events -/

theorem test_hello_stores_key : ((after (.hello 0 1 2 1) live).seatRec ann).confirmKey = some true := by decide +kernel
theorem test_press_opens : ((after (.micPress 0 1 3 0) live).chan 0).state = .opening ∧ (after (.micPress 0 1 3 0) live).unsent ann = some (.openMic 0 false) := by
  decide +kernel
theorem test_press_releases : ((after (.micPress 0 1 3 0) speaking).chan 0).closeCause = some .released := by decide +kernel
theorem test_confirm_opens : ((after (.confirm 0 1 3 0) (offering (some 50))).chan 0).state = .opening := by decide +kernel
theorem test_priority_down_holds : (after (.priorityDown 0 3 1 0) speaking).far.holdLevel = 7
    ∧ ((after (.priorityDown 0 3 1 0) speaking).chan 0).state = .held := by decide +kernel
theorem test_priority_up_resumes : (after (.priorityUp 0 3 2 0) (after (.priorityDown 0 3 1 0) speaking)).far.holdSet = [] := by decide +kernel
theorem test_chair_next_promotes : ((after (.chairNext 0 3 1 0) (controlled queued)).chan 0).seat = some ann := by decide +kernel
theorem test_chair_clear : (after (.chairClear 0 3 1 0) (controlled queued)).far.list = [] := by decide +kernel
theorem test_take_list : (after (.takeList 0 3 1 0) live).far.holder = some chair := by decide +kernel
theorem test_give_list : (after (.giveList 0 3 1 0) (controlled live)).far.holder = none := by decide +kernel

/-! ### Completions -/

/-- Ann OPENING on channel 0, her OPEN sent. -/
def opening : State := sent ann (.openMic 0 false) 1 (holding 0 (chanFor ann 0 1 .opening) live)
/-- Ann HELD on channel 0, at a hold level. -/
def heldAt (level : Fin 8) : State := (holding 0 (chanFor ann 0 1 .held) live).modFar fun f => { f with holdLevel := level }
/-- Ann CLOSING on channel 0, her CLOSE sent. -/
def closing : State := sent ann .close 1 (holding 0 { chanFor ann 0 1 .closing with closeCause := some .time } live)

theorem test_open_done_and_rejected : ((after (.openComplete ann .done) opening).chan 0).state = .opened
    ∧ ((after (.openComplete ann .done) opening).seatRec ann).grants = 1
    ∧ ((after (.openComplete ann .rejected) opening).chan 0).state = .free := by decide +kernel
theorem test_mute_rejected : ((after (.muteComplete ann .rejected) (sent ann .mute 1 (heldAt 7))).chan 0).closeCause = some .rejected := by decide +kernel
theorem test_unmute_done : ((after (.unmuteComplete ann .done) (sent ann .unmute 1 (heldAt 0))).chan 0).state = .opened := by decide +kernel
theorem test_close_done : (after (.closeComplete ann .done) closing).far.openSeq = [] := by decide +kernel
theorem test_offer_done : (after (.offerComplete ann .done) (sent ann .offer 1 (offering none))).far.list.map Entry.deadline = [some 100] := by decide +kernel
theorem test_withdraw_done : ((after (.withdrawComplete ann .done) (sent ann .withdraw 1 live)).tpc 0).inFlight = none := by decide +kernel
theorem test_indication_done : ((after (.indicationComplete ann .rejected) (sent ann .warn 1 live)).tpc 0).inFlight = none := by decide +kernel
theorem test_probe_answered : ((after (.probeAnswered ⟨0, 9⟩ .done 1) (sent ⟨0, 9⟩ .probe 1 live)).seatRec ⟨0, 9⟩).availability = .present := by decide +kernel
theorem test_last_attempt : ((after (.commandAttemptFailed 0) (sent ann .warn 3 live)).seatRec ann).availability = .unreachable
    ∧ (after (.commandAttemptFailed 0) (sent ann .warn 3 live)).hasFlag .seatLost = true := by decide +kernel

/-! ### Records -/

theorem test_load_seat : ((after (.loadSeat ⟨1, 2, none, none, some 30, none⟩) live).seatRec bob).trim = 24
    ∧ status (after (.loadSeat ⟨1, 2, none, none, some 30, none⟩) live) = some .clamped
    ∧ status (after (.loadSeat ⟨2, 1, none, none, some 3, none⟩) live) = some .badField := by decide +kernel
theorem test_read_seat_invalid : status (after (.readSeat 127) live) = some .noSeat := by decide +kernel
theorem test_set_class_level : (vget (after (.setClass ⟨1, none, some 6, none, none, none, none, none, none⟩) live).stb.classes 1).level = 6 := by
  decide +kernel
theorem test_read_class_fields : (after (.readClass 7) live).lastReply.map ReplyRecord.fields = some [1, 7, 0, 0, 0, 0, 0, 0, 0, 0, 1] := by decide +kernel
theorem test_set_zone : (after (.setZone ⟨0, some 1, some 1, some 3, none⟩) live).zoneOf ann = some 0 := by decide +kernel
theorem test_read_zone_refused : status (after (.readZone 9) live) = some .badField := by decide +kernel
theorem test_census : ((after (.census 0) live).tpc 0).censusRunning = true ∧ status (after (.census 0) speaking) = some .state := by decide +kernel
theorem test_abort_census : ((after (.abortCensus 0) (after (.census 0) live)).tpc 0).censusOutcome = .aborted := by decide +kernel
theorem test_hold_trunk : ((after (.holdTrunk 0) speaking).tpc 0).link = .held ∧ ((after (.holdTrunk 0) speaking).chan 0).state = .free := by decide +kernel
theorem test_release_trunk : ((after (.releaseTrunk 0) (after (.holdTrunk 0) live)).tpc 0).link = .down := by decide +kernel
theorem test_read_trunk : (after (.readTrunk 0) live).lastReply.map (fun r => r.fields.take 3) = some [0, 2, 0] := by decide +kernel
theorem test_close : ((after (.close 1) speaking).chan 0).closeCause = some .controller ∧ status (after (.close 2) speaking) = some .state := by decide +kernel
theorem test_close_all : (after .closeAll speaking).lastReply.map ReplyRecord.fields = some [1] := by decide +kernel
theorem test_read_channels : (after .readChannels live).lastReply.map (fun r => r.fields.take 3) = some [0, 0, 0] := by decide +kernel
theorem test_insert_request :
    let s := after (.insertRequest 2 200) (withSettings (fun v => { v with mode := .list }) queued)
    s.far.list.map Entry.seat = [ann, bob] ∧ status s = some .clamped := by decide +kernel
theorem test_cancel_request : (after (.cancelRequest 1) queued).far.list = [] := by decide +kernel
theorem test_clear_list : (after .clearList queued).lastReply.map ReplyRecord.fields = some [1] := by decide +kernel
theorem test_read_list : (after (.readList 0 9) queued).lastReply.map (fun r => (r.status, r.fields.take 2)) = some (.clamped, [1, 0]) := by decide +kernel
theorem test_next_none : status (after .next live) = some .none := by decide +kernel
theorem test_next_gives_floor : ((after .next queued).chan 0).cause = some .promoted ∧ (after .next queued).far.list = [] := by decide +kernel
theorem test_grant : ((after (.grant 2) live).chan 0).cause = some .grant ∧ (after (.grant 2) live).lastReply.map ReplyRecord.fields = some [0, 0] := by decide +kernel
theorem test_claim_list : (after .claimList live).far.claimed = true ∧ status (after .claimList (controlled live)) = some .notOwner := by decide +kernel
theorem test_yield_list : (after .yieldList (after .claimList live)).far.claimed = false := by decide +kernel
theorem test_force_list : (after (.forceList 1) (controlled live)).far.holder = none ∧ (after (.forceList 1) (controlled live)).far.forceReturn = true := by
  decide +kernel
theorem test_read_mix : (after .readMix live).lastReply.map (fun r => r.fields.take 3) = some [1, 0, 0] := by decide +kernel
theorem test_batch : (after (.batch 9) live).mge.batch = some 7 ∧ status (after (.batch 9) live) = some .clamped := by decide +kernel
theorem test_unknown_record : status (after (.unknownRecord 0x60) live) = some .unknown := by decide +kernel
theorem test_set_notices : (after (.setNotices (Vector.replicate 14 0)) live).hli.noticeMask = 0
    ∧ status (after (.setNotices (Vector.replicate 14 2)) live) = some .badField := by decide +kernel
theorem test_set_report : (after (.setReport (Vector.replicate 14 1)) live).mge.reportMask = 0x3FFF := by decide +kernel
/-- No setting named. -/
def noSettings : SetFloorParams :=
  ⟨none, none, none, none, none, none, none, none, none, none, none, none, none, none, none, none, none, none, none, none⟩
theorem test_set_floor_holds_reserve : (after (.setFloor { noSettings with floorLimit := some 1 }) live).mge.settings.chairReserve = 0
    ∧ status (after (.setFloor { noSettings with floorLimit := some 1 }) live) = some .clamped := by decide +kernel
theorem test_read_settings : (after .readSettings live).lastReply.map (fun r => r.fields.take 4) = some [0, 6, 1, 0] := by decide +kernel
theorem test_open_sitting : (after .openSitting live).mge.sittingOpen = true := by decide +kernel
theorem test_close_sitting : status (after .closeSitting live) = some .state
    ∧ (after .closeSitting (after .openSitting queued)).lastReply.map ReplyRecord.fields = some [0, 1] := by decide +kernel
theorem test_read_status : (after .readStatus live).lastReply.map (fun r => r.fields.take 5) = some [0, 0, 0, 0x08, 0x00] := by decide +kernel
theorem test_clear_status : (after (.clearStatus 0x0800) live).mge.flags = 0 := by decide +kernel
theorem test_read_ident : (after .readIdent live).lastReply.map ReplyRecord.fields = some [0x14, 0x00, 1, 12, 4, 120, 64, 32, 8] := by decide +kernel

/-! ### States and operands that meet the hypotheses of the statements -/

theorem witness_StepRunsFrontCommand : ({ live with pending := [.next] } : State).pending = .next :: [] := rfl

/-- A place with waiting records. -/
def place (rs : List (List Byte)) : Place := ⟨7, false, rs, []⟩
def withPlace (rs : List (List Byte)) (s : State) : State := s.modHli fun h => { h with replyQueue := [place rs] }
theorem witness_EmptyQueueRunsWaitingRecord : live.pending = []
    ∧ (withPlace [0x27 :: 14 :: List.replicate 12 0] live).nextWaiting = some (.command .next)
    ∧ (withPlace [[0x27, 2]] live).nextWaiting = some (.badLength 0x27) ∧ live.nextWaiting = none ∧ live.mge.batch = none
    ∧ live.running = true ∧ (after (.batch 3) live).pending = [] ∧ (after (.batch 3) live).nextWaiting = none
    ∧ (after (.batch 3) live).running = true ∧ (after (.batch 3) live).mge.batch ≠ none := by decide +kernel

theorem witness_StartUpHoldStopsEveryOtherCommand : State.reset.startUpHold ≠ none ∧ Instr.next ≠ .powerOnReset ∧ Instr.next ≠ .brownoutReset
    ∧ Instr.next ≠ .pinReset ∧ Instr.next ≠ .startUpHoldEnd := by decide +kernel

theorem witness_HardwareResetsRestartEngine : State.reset.startUpHold = some 40 ∧ live.startUpHold = none := by decide +kernel

theorem witness_ResetEngineClearsFloorKeepsSeating : live.takes .resetEngine
    ∧ (withPlace [0x57 :: 14 :: List.replicate 12 0, [0x27, 2]] live).takes .resetEngine := by
  unfold State.takes; decide +kernel

theorem witness_HallLinkFollowsFrameRuns : live.running = true ∧ hallFrameOk (hallIdle 1) = true ∧ hallFrameOk [] = false ∧ live.hli.link = .down
    ∧ (aligning 30 0).running = true ∧ (aligning 30 0).hli.link = .aligning ∧ (aligning 30 0).hli.validRun + 1 < 32
    ∧ (aligning 31 0).running = true ∧ (aligning 31 0).hli.link = .aligning ∧ (aligning 31 0).hli.validRun = 31
    ∧ (aligning 0 6).hli.badRun + 1 < 8 ∧ (aligning 0 6).hli.link = .aligning ∧ (aligning 0 6).running = true
    ∧ (aligning 0 7).hli.badRun = 7 ∧ (aligning 0 7).hli.link = .aligning ∧ (aligning 0 7).running = true
    ∧ (hallUp 6).running = true ∧ (hallUp 6).hli.link = .up ∧ (hallUp 6).hli.badRun + 1 < 8 := by decide +kernel

/-- Two notices on the lane. -/
def sending : State := (hallUp 7).modHli fun h => { h with assembly := some [0], laneSender := some ⟨.notices 2, [1, 2], 1⟩ }
theorem witness_HallLinkLossUnattendsEngine : sending.running = true ∧ sending.hli.link = .up ∧ sending.hli.badRun = 7
    ∧ sending.hli.attended = true ∧ sending.hli.assembly ≠ none ∧ sending.hli.laneSender = some ⟨.notices 2, [1, 2], 1⟩ := by decide +kernel

/-- A NEXT packet but for its last four bytes, and a frame that brings them; `ok` says whether the CRC matches. -/
def packetStart18 : List Byte := 0 :: 20 :: 5 :: 1 :: 0x27 :: 14 :: List.replicate 10 0
def lastFour (ok : Bool) : List Byte := [0, 0] ++ (if ok then halfBytes (crc16 (packetStart18 ++ [0, 0])) else [0, 0])
def laneFrame (bytes : List Byte) : List Byte :=
  let body := 6 :: 4 :: bytes
  0xC3 :: (body ++ [crc8 body])
def assembling (places : Nat) : State := (hallUp 0).modHli fun h =>
  { h with assembly := some packetStart18, lastFrame := some 5, replyQueue := List.replicate places (place [[0x27, 2]]) }
theorem witness_LaneAcceptsCompletedPacket :
    (∀ n ∈ [0, 3, 4], (assembling n).running = true ∧ (assembling n).hli.link = .up ∧ (assembling n).hli.assembly = some packetStart18
      ∧ (assembling n).hli.lastFrame = some ((laneFrame (lastFour true)).getD 1 0 - 1) ∧ (assembling n).hli.replyQueue.length = n)
    ∧ (∀ ok ∈ [true, false], hallFrameOk (laneFrame (lastFour ok)) = true ∧ packetStart (laneFrame (lastFour ok)) = false
      ∧ laneCount (laneFrame (lastFour ok)) ≠ 0 ∧ (packetStart18 ++ laneBytes (laneFrame (lastFour ok))).length = 20
      ∧ packetLength (packetStart18 ++ laneBytes (laneFrame (lastFour ok))) = 20
      ∧ packetCrcOk ((packetStart18 ++ laneBytes (laneFrame (lastFour ok))).take 20) = ok)
    ∧ (assembling 0).mge.batch = none ∧ (assembling 3).nextRecord ≠ none ∧ (after (.batch 3) (assembling 0)).mge.batch ≠ none
    ∧ (after (.batch 3) (assembling 0)).nextRecord = none ∧ (after (.batch 3) (assembling 0)).running = true
    ∧ (after (.batch 3) (assembling 0)).hli = (assembling 0).hli
    ∧ (placeOfPacket ((packetStart18 ++ laneBytes (laneFrame (lastFour true))).take 20)).waiting ≠ [] := by decide +kernel

/-- A batch of records of their own does not reach into an accepted packet (R172). -/
theorem test_own_batch_ends_at_packet : (after (.hallFrameValid (laneFrame (lastFour true))) (after (.batch 3) (assembling 0))).mge.batch = none
    ∧ (after (.hallFrameValid (laneFrame (lastFour true))) (after (.batch 3) (assembling 0))).nextRecord.isSome = true := by decide +kernel

theorem witness_HallFrameSendBuildsFrame : live.running = true ∧ live.hli.link ≠ .up
    ∧ (hallUp 0).running = true ∧ (hallUp 0).hli.laneSender = none ∧ (∀ p ∈ (hallUp 0).hli.replyQueue, p.waiting ≠ []) ∧ (hallUp 0).hli.noticeQueue = []
    ∧ (withPlace [] (hallUp 0)).running = true ∧ (withPlace [] (hallUp 0)).hli.link = .up ∧ (withPlace [] (hallUp 0)).hli.laneSender = none
    ∧ (withPlace [] (hallUp 0)).hli.replyQueue = [place []] ∧ (place []).waiting = [] := by decide +kernel

theorem witness_MixComputationSumsOpenChannels : speaking.running = true ∧ speaking.mge.decisecondPhase + 1 < 1600
    ∧ (speaking.modMge fun m => { m with decisecondPhase := 1599 }).running = true
    ∧ 1600 ≤ (speaking.modMge fun m => { m with decisecondPhase := 1599 }).mge.decisecondPhase + 1 := by decide +kernel

theorem witness_ProductRoundsHalfUp : (-32768 : Int) ≤ -32768 ∧ (-32768 : Int) ≤ 32767 ∧ 32768 ≤ 32768 ∧ 16384 ≤ 16384 ∧ (0 : Int) ≤ 0 := by decide

/-- No comparison and no deadline due, at a second phase. -/
def ticking (phase : Nat) : State := (holding 1 (chanFor bob 1 2 .opened) (offering (some 2))).modMge fun m => { m with secondPhase := phase }
theorem witness_DecisecondAdvancesOpenClocks : ∀ phase ∈ [8, 9], (ticking phase).running = true ∧ (ticking phase).noPromotionOwed
    ∧ (∀ c x, ((ticking phase).chan c).state = .opened → ((ticking phase).chan c).seat = some x → (ticking phase).allowanceOf x = 0)
    ∧ (∀ e ∈ (ticking phase).far.list, ∀ d, e.deadline = some d → 2 ≤ d) ∧ (ticking phase).mge.secondPhase = phase := by
  have h : ∀ phase ∈ [8, 9], (ticking phase).running = true ∧ (ticking phase).far.promotionDeferred = false
      ∧ (∀ c, (((ticking phase).chan c).seat.map (ticking phase).allowanceOf).getD 0 = 0)
      ∧ (∀ e ∈ (ticking phase).far.list, 2 ≤ e.deadline.getD 2) ∧ (ticking phase).mge.secondPhase = phase := by decide +kernel
  intro phase hp
  obtain ⟨h1, h2, h3, h4, h5⟩ := h phase hp
  refine ⟨h1, .inr h2, fun c x _ hx => ?_, fun e he d hd => ?_, h5⟩
  · have := h3 c; rw [hx] at this; exact this
  · have := h4 e he; rw [hd] at this; exact this

def timed (n : Nat) : State := (hallUp 0).modHli fun h => { h with silenceTimer := some n }
def claimed (s : State) : State := s.modFar fun f => { f with claimed := true }
theorem witness_SilenceTimerLeadsToFallback : live.running = true ∧ live.hli.silenceTimer = none
    ∧ (timed 28).running = true ∧ (timed 28).hli.silenceTimer = some 28 ∧ min 255 (28 + 1) < (timed 28).mge.settings.silenceLimit
    ∧ (timed 29).hli.silenceTimer = some 29 ∧ (timed 29).running = true ∧ (timed 29).mge.settings.silenceLimit ≠ 0
    ∧ (timed 29).mge.settings.silenceLimit ≤ min 255 (29 + 1)
    ∧ (timed 30).hli.silenceTimer = some 30 ∧ (timed 30).mge.settings.silenceLimit ≤ 30 ∧ (timed 30).hli.attended = true ∧ (timed 30).running = true
    ∧ (timed 30).far.claimed = false ∧ (timed 30).far.forceReturn = false ∧ (claimed (timed 30)).far.claimed = true
    ∧ (claimed (timed 30)).running = true ∧ (claimed (timed 30)).hli.attended = true ∧ (claimed (timed 30)).hli.silenceTimer = some 30
    ∧ (claimed (timed 30)).mge.settings.silenceLimit ≤ 30 := by decide +kernel

theorem witness_SpeakingLimitWarnsAndExpires :
    (∀ s ∈ [overtime, overtimeClose, overtime.modSlm 0 fun m => { m with warned := true, overrun := true }], s.running = true
      ∧ (s.chan 0).state = .opened ∧ (s.chan 0).seat = some ann ∧ s.allowanceOf ann ≠ 0 ∧ s.allowanceOf ann * 10 ≤ (s.slmOf 0).clock
      ∧ s.mge.settings.warnLead ≠ 0 ∧ (s.allowanceOf ann - s.mge.settings.warnLead) * 10 ≤ (s.slmOf 0).clock)
    ∧ (overtime.slmOf 0).warned = false ∧ (overtime.slmOf 0).overrun = false ∧ (overtime.classOf ann).action = .notify
    ∧ (overtimeClose.classOf ann).action = .close
    ∧ ((overtime.modSlm 0 fun m => { m with warned := true, overrun := true }).slmOf 0).warned = true
    ∧ ((overtime.modSlm 0 fun m => { m with warned := true, overrun := true }).slmOf 0).overrun = true
    ∧ ((overtime.modSlm 0 fun m => { m with warned := true, overrun := true }).classOf ann).action = .notify := by decide +kernel

/-- Ann's entry while OFFERED. -/
def offeredEntry (d : Option Nat) : Entry := { waitingFor ann 1 with state := .offered, window := some 100, deadline := d }
theorem witness_OfferLapseFreesChannel : (∀ d ∈ [1, 2], (offering (some d)).running = true
      ∧ (offering (some d)).entryOf ann = some (offeredEntry (some d)) ∧ (offering (some d)).chanOf ann = some 0
      ∧ ((offering (some d)).chan 0).state = .offered) ∧ (offeredEntry (some 1)).state = .offered := by decide +kernel

theorem witness_LevelWindowGatesAndReleases : windowed.running = true ∧ (windowed.chan 0).state = .opened ∧ (windowed.chan 0).seat = some ann
    ∧ (windowed.slmOf 0).progress = some 255 ∧ (windowed.slmOf 0).exponent = some 8 ∧ 255 + 1 = 2 ^ 8 ∧ windowed.mge.settings.levelMonitor = true
    ∧ (windowed.classOf ann).silenceRelease = false
    ∧ silent.running = true ∧ (silent.chan 0).state = .opened ∧ (silent.chan 0).seat = some ann ∧ silent.mge.settings.levelMonitor = true
    ∧ silent.mge.settings.silenceCountSetting ≤ (silent.slmOf 0).silenceCount ∧ (silent.classOf ann).silenceRelease = true := by decide +kernel

/-- A full notice queue, and a mask that disables everything. -/
def fullNotices : State := live.modHli fun h => { h with noticeQueue := List.replicate 32 (.trunk 0 .up) }
def noNotices : State := live.modHli fun h => { h with noticeMask := 0 }
theorem witness_NoticesPassMaskAndQueue : noNotices.hli.noticeMask.getLsbD (Notice.code (.trunk 0 .up) - 1) = false
    ∧ live.hli.noticeMask.getLsbD (Notice.code (.trunk 0 .up) - 1) = true ∧ live.hli.noticeQueue.length < 32
    ∧ fullNotices.hli.noticeMask.getLsbD (Notice.code (.trunk 0 .up) - 1) = true ∧ 32 ≤ fullNotices.hli.noticeQueue.length := by decide +kernel

theorem witness_PlacementCombinesUnsentCommands : (live.tpc eve.trunk).link ≠ .up ∧ (live.tpc ann.trunk).link = .up
    ∧ (live.seatRec ann).availability = .present ∧ live.unsent ann = none ∧ (live.place ann .mute).unsent ann = some .mute
    ∧ (((live.place ann .mute).tpc ann.trunk).queue.map QEntry.target).Nodup ∧ ((live.place ann .mute).tpc ann.trunk).link = .up
    ∧ ((live.place ann .mute).seatRec ann).availability = .present := by decide +kernel

def owed (s : State) : State := s.trigger
def inList (s : State) : State := withSettings (fun v => { v with mode := .list }) s
def confirming (s : State) : State := withSettings (fun v => { v with confirm := true }) s
theorem witness_PromotionRunsAtEndOfHandling : live.far.promotionDeferred = false ∧ (owed (inList queued)).mge.batch = none
    ∧ (owed (inList queued)).far.promotionDeferred = true ∧ (owed (inList queued)).mge.settings.mode = .list
    ∧ (owed live).far.promotionDeferred = true ∧ (owed live).mge.batch = none ∧ (∀ e ∈ (owed live).far.list, (owed live).promotable e.seat = false)
    ∧ (owed (confirming queued)).mge.batch = none ∧ (owed (confirming queued)).far.promotionDeferred = true
    ∧ (owed (confirming queued)).mge.settings.mode ≠ .list ∧ (owed (confirming queued)).far.list = [waitingFor ann 1]
    ∧ (waitingFor ann 1).state = .waiting ∧ (owed (confirming queued)).eligible ann = true ∧ (owed (confirming queued)).mge.settings.confirm = true
    ∧ (owed (confirming queued)).freeChan = some 0 ∧ (owed (confirming queued)).freeSlot none ann.trunk = some 0 := by decide +kernel

def heldTrunk : State := live.modTpc 0 fun p => { p with link := .held }
theorem witness_TrunkFollowsFrameRuns : (∀ s ∈ [down, training 62 0, training 63 0, heldTrunk, live], s.running = true ∧ (s.tpc 0).goodFrame quiet = true)
    ∧ (down.tpc 0).link = .down ∧ ((training 62 0).tpc 0).link = .training ∧ ((training 62 0).tpc 0).goodRun + 1 < 64
    ∧ ((training 63 0).tpc 0).goodRun = 63 ∧ (heldTrunk.tpc 0).link = .held ∧ (live.tpc 0).link = .up ∧ live.far.promotionDeferred = false
    ∧ upEventAt quiet 2 = none ∧ upEventAt quiet 5 = none ∧ (live.tpc 0).inFlight = none ∧ (∀ c, (live.chan c).trunk ≠ some 0)
    ∧ (live.tpc 0).goodFrame [] = false ∧ (training 5 6).running = true ∧ ((training 5 6).tpc 0).link = .training
    ∧ ((training 5 6).tpc 0).badRun + 1 < 8 ∧ ((training 5 7).tpc 0).badRun = 7 ∧ ((training 5 7).tpc 0).link = .training ∧ (training 5 7).running = true
    ∧ (live.tpc 0).badRun + 1 < 8 := by decide +kernel

theorem witness_TrunkLossClearsFloor : failing.running = true ∧ (failing.tpc 0).link = .up ∧ (failing.tpc 0).badRun = 7 := by decide +kernel

def probing : State := live.modTpc 0 fun p => { p with censusRunning := true, nextProbe := 120 }
def retrying : State := live.modTpc 0 fun p => { p with inFlight := some ⟨0, .warn, 1, 0, .retry⟩ }
def oldFlight (frame : Byte) : State := live.modTpc 0 fun p => { p with inFlight := some ⟨0, .warn, 1, frame, .sent⟩ }
theorem witness_TrunkFrameSendCarriesCommand :
    (∀ s ∈ [heldTrunk, down, training 1 0, live, live.place ann .warn, live.placeAllOff 0, probing, retrying, oldFlight 253, oldFlight 252],
      s.running = true)
    ∧ (heldTrunk.tpc 0).link = .held ∧ (down.tpc 0).link = .down ∧ ((training 1 0).tpc 0).link = .training
    ∧ ((live.place ann .warn).tpc 0).link = .up ∧ ((live.place ann .warn).tpc 0).inFlight = none
    ∧ nextQueued ((live.place ann .warn).tpc 0).queue = some ⟨some 0, .warn⟩
    ∧ ((live.placeAllOff 0).tpc 0).inFlight = none ∧ nextQueued ((live.placeAllOff 0).tpc 0).queue = some ⟨none, .allOff⟩
    ∧ ((live.placeAllOff 0).tpc 0).link = .up
    ∧ (probing.tpc 0).link = .up ∧ (probing.tpc 0).inFlight = none ∧ (probing.tpc 0).queue = [] ∧ (probing.tpc 0).censusRunning = true
    ∧ (probing.tpc 0).nextProbe = (119 : Fin 120).val + 1
    ∧ (retrying.tpc 0).link = .up ∧ (retrying.tpc 0).inFlight = some ⟨0, .warn, 1, 0, .retry⟩
    ∧ (live.tpc 0).link = .up ∧ (live.tpc 0).inFlight = none ∧ (live.tpc 0).queue = [] ∧ (live.tpc 0).censusRunning = false
    ∧ ((oldFlight 253).tpc 0).link = .up ∧ ((oldFlight 253).tpc 0).inFlight = some ⟨0, .warn, 1, 253, .sent⟩
    ∧ (((oldFlight 253).tpc 0).nextFrame - 253).toNat < 4 ∧ ((oldFlight 252).tpc 0).inFlight = some ⟨0, .warn, 1, 252, .sent⟩
    ∧ 4 ≤ (((oldFlight 252).tpc 0).nextFrame - 252).toNat ∧ Cmd.warn ≠ .probe ∧ 1 < (oldFlight 252).mge.settings.retryLimit
    ∧ ((oldFlight 252).tpc 0).link = .up := by decide +kernel

/-- Ann's last serial is 3. -/
def pressed : State := live.modSeat ann fun r => { r with lastSerial := some 3 }
theorem witness_SeatEventsAreDeduplicated : State.reset.running = false ∧ (live.tpc 1).link ≠ .up ∧ live.running = true ∧ (live.tpc 0).link = .up
    ∧ (121 : Fin 128).val > 120 ∧ (0 : Fin 128).val = 0 ∧ ann.trunk = 0 ∧ ann.pos.val + 1 = (1 : Fin 128).val
    ∧ (⟨0, 119⟩ : Seat).pos.val + 1 = (120 : Fin 128).val ∧ pressed.running = true ∧ (pressed.tpc 0).link = .up
    ∧ (pressed.seatRec ann).lastSerial = some 3 ∧ (live.seatRec ann).lastSerial ≠ some 3 := by decide +kernel

theorem witness_ChairEventsNeedAChair : EventKind.takeList ≠ .hello ∧ EventKind.takeList ≠ .micPress ∧ EventKind.takeList ≠ .confirm
    ∧ live.takesEvent 0 1 3 ann ∧ live.kindOf ann ≠ .chair := by unfold State.takesEvent; decide +kernel

theorem witness_HelloRestartsUnit : live.takesEvent 0 5 3 ⟨0, 4⟩ ∧ (live.seatRec ⟨0, 4⟩).availability ≠ .present
    ∧ (∀ s ∈ [live, queued, speaking, closing], s.running = true ∧ (s.tpc 0).link = .up ∧ (s.seatRec ann).lastSerial ≠ some 3
      ∧ (s.seatRec ann).availability = .present ∧ ann ∉ s.far.holdSet ∧ s.far.holder ≠ some ann)
    ∧ seatOfPosition 0 1 = some ann ∧ live.floorState ann = .idle ∧ closing.floorState ann = .closing ∧ queued.floorState ann = .waiting
    ∧ queued.listIndex ann = some 0 ∧ speaking.floorState ann = .opened ∧ speaking.chanOf ann = some 0 := by
  unfold State.takesEvent; decide +kernel

theorem witness_PressOpensAChannel :
    (∀ x ∈ [(ann, (1 : Fin 128)), (chair, 3)], live.takesEvent 0 x.2 3 x.1 ∧ live.floorState x.1 = .idle ∧ live.unsent x.1 = none
      ∧ (live.afterIntake x.1 3).eligible x.1 = true)
    ∧ (0 : Byte).getLsbD 0 = false ∧ live.mge.batch = none ∧ live.freeChan = some 0 ∧ live.freeSlot none 0 = some 0
    ∧ live.kindOf ann = .delegate ∧ live.mge.settings.mode = .direct ∧ live.kindOf chair = .chair := by
  unfold State.takesEvent; decide +kernel

/-- A floor without room for a delegate, and a full list. -/
def crowded : State := withSettings (fun v => { v with floorLimit := 1, chairReserve := 0 }) (holding 1 (chanFor bob 0 2 .opened) live)
def longList : State := inList (live.modFar fun f => { f with list := List.replicate 64 (waitingFor bob 2) })
theorem witness_PressJoinsTheList :
    (∀ s ∈ [inList live, crowded, longList], s.takesEvent 0 1 3 ann ∧ s.floorState ann = .idle ∧ (s.seatRec ann).enabled = true ∧ s.kindOf ann = .delegate)
    ∧ (0 : Byte).getLsbD 0 = false ∧ (inList live).mge.settings.mode ≠ .direct ∧ (inList live).far.list.length < 64
    ∧ crowded.mge.settings.policy = .queue ∧ (crowded.afterIntake ann 3).eligible ann = false ∧ longList.mge.settings.mode ≠ .direct
    ∧ 64 ≤ longList.far.list.length
    ∧ (∀ a ∈ [{ waitingFor chair 7 with kind := .chair }, waitingFor bob 2], a.kind ≠ .listener) ∧ (waitingFor ann 1).kind ≠ .listener := by
  unfold State.takesEvent; decide +kernel
theorem witness_PressJoinsTheList_chairsFirst : chairsFirst [{ waitingFor chair 7 with kind := .chair }, waitingFor bob 2] := by
  unfold chairsFirst; decide

def denying : State := withSettings (fun v => { v with policy := .deny }) crowded
def disabled : State := live.modSeat ann fun r => { r with enabled := false }
def keeping : State := withSettings (fun v => { v with secondPressCancels := false }) queued
theorem witness_PressesRefusedOrWithdrawn :
    (∀ s ∈ [live, disabled, denying, queued, keeping, closing, speaking], s.takesEvent 0 1 3 ann)
    ∧ live.floorState ann = .idle ∧ (1 : Byte).getLsbD 0 = true ∧ disabled.floorState ann = .idle ∧ (disabled.seatRec ann).enabled = false
    ∧ denying.floorState ann = .idle ∧ (0 : Byte).getLsbD 0 = false ∧ (denying.seatRec ann).enabled = true ∧ denying.kindOf ann = .delegate
    ∧ denying.mge.settings.mode = .direct ∧ (denying.tpc 0).censusRunning = false ∧ (denying.afterIntake ann 3).eligible ann = false
    ∧ denying.mge.settings.policy = .deny ∧ keeping.floorState ann = .waiting ∧ keeping.mge.settings.secondPressCancels = false
    ∧ queued.floorState ann = .waiting ∧ queued.mge.settings.secondPressCancels = true ∧ queued.listIndex ann = some 0
    ∧ closing.floorState ann = .closing ∧ speaking.floorState ann = .opened := by unfold State.takesEvent; decide +kernel

/-- Ann's OPEN not yet sent; ann the successor on bob's channel. -/
def unsentOpen : State := (holding 0 (chanFor ann 0 1 .opening) live).place ann (.openMic 0 false)
def succeeding : State := holding 0 { chanFor bob 0 2 .closing with successor := some ann, closeCause := some .replaced } live
theorem witness_PressReleasesTheChannel : (∀ s ∈ [speaking, heldAt 7, opening, unsentOpen, succeeding, closing], s.takesEvent 0 1 3 ann)
    ∧ speaking.floorState ann = .opened ∧ speaking.chanOf ann = some 0 ∧ (heldAt 7).floorState ann = .held ∧ (heldAt 7).chanOf ann = some 0
    ∧ opening.floorState ann = .opening ∧ opening.chanOf ann = some 0 ∧ opening.openUnsent ann = false
    ∧ unsentOpen.floorState ann = .opening ∧ unsentOpen.chanOf ann = some 0 ∧ unsentOpen.openUnsent ann = true
    ∧ succeeding.floorState ann = .succeeding ∧ succeeding.successorChan ann = some 0
    ∧ closing.floorState ann = .closing := by unfold State.takesEvent; decide +kernel

def replacing : State :=
  withSettings (fun v => { v with floorLimit := 1, chairReserve := 0, policy := .replace }) (holding 1 (chanFor bob 0 1 .opened) live)
theorem witness_PressReplacesOldestCandidate : replacing.takesEvent 0 1 3 ann ∧ replacing.floorState ann = .idle ∧ (0 : Byte).getLsbD 0 = false
    ∧ (replacing.seatRec ann).enabled = true ∧ replacing.kindOf ann = .delegate ∧ replacing.mge.settings.mode = .direct
    ∧ replacing.mge.settings.policy = .replace ∧ replacing.mge.batch = none ∧ (replacing.tpc 0).censusRunning = false
    ∧ (replacing.chan 1).seat = some bob ∧ (replacing.afterIntake ann 3).eligible ann = false
    ∧ (replacing.afterIntake ann 3).candidate ann = some 1 := by unfold State.takesEvent; decide +kernel

def keyed : State := withSettings (fun v => { v with pressAsConfirm := false }) ((offering (some 5)).modSeat ann fun r => { r with confirmKey := some true })
theorem witness_ConfirmTakesTheOffer : (∀ s ∈ [offering (some 5), keyed], s.takesEvent 0 1 3 ann ∧ s.entryOf ann = some (offeredEntry (some 5))
      ∧ s.chanOf ann = some 0 ∧ (s.chan 0).state = .offered ∧ (s.chan 0).slot = some 0 ∧ s.unsent ann ≠ some .close)
    ∧ ¬ (((offering (some 5)).seatRec ann).confirmKey = some true ∧ (offering (some 5)).mge.settings.pressAsConfirm = false)
    ∧ (keyed.seatRec ann).confirmKey = some true ∧ keyed.mge.settings.pressAsConfirm = false := by unfold State.takesEvent; decide +kernel

/-- The chair in the hold set at a level; the chair WAITING. -/
def member (level : Fin 8) (s : State) : State := s.modFar fun f => { f with holdSet := [chair], holdLevel := level }
def chairWaits (level : Fin 8) (s : State) : State :=
  s.modFar fun f => { f with list := [{ waitingFor chair 7 with kind := .chair }], holdLevel := level }
theorem witness_PriorityDownRaisesTheHold :
    (∀ s ∈ [member 7 live, live, speaking, chairWaits 7 live, chairWaits 0 speaking, heldAt 7], s.takesEvent 0 3 3 chair ∧ s.kindOf chair = .chair
      ∧ (s.seatRec chair).enabled = true)
    ∧ chair ∈ (member 7 live).far.holdSet ∧ chair ∉ live.far.holdSet ∧ live.floorState chair = .idle
    ∧ (heldAt 7).floorState chair = .idle ∧ (heldAt 7).levelOfMembers (seatInsert chair (heldAt 7).far.holdSet) ≤ (heldAt 7).far.holdLevel
    ∧ (chairWaits 7 live).floorState chair ≠ .idle
    ∧ (chairWaits 7 live).levelOfMembers (seatInsert chair (chairWaits 7 live).far.holdSet) ≤ (chairWaits 7 live).far.holdLevel
    ∧ (chairWaits 0 speaking).floorState chair ≠ .idle
    ∧ (chairWaits 0 speaking).far.holdLevel < (chairWaits 0 speaking).levelOfMembers (seatInsert chair (chairWaits 0 speaking).far.holdSet)
    ∧ live.far.holdLevel < live.levelOfMembers (seatInsert chair live.far.holdSet) := by unfold State.takesEvent; decide +kernel

theorem witness_PriorityUpLowersTheHold :
    (∀ s ∈ [live, member 7 live, member 0 live, member 7 (heldAt 7)], s.takesEvent 0 3 3 chair ∧ s.kindOf chair = .chair)
    ∧ chair ∉ live.far.holdSet ∧ chair ∈ (member 0 live).far.holdSet
    ∧ (member 0 live).levelOfMembers ((member 0 live).far.holdSet.filter fun y => y ≠ chair) = (member 0 live).far.holdLevel
    ∧ chair ∈ (member 7 live).far.holdSet
    ∧ (member 7 live).levelOfMembers ((member 7 live).far.holdSet.filter fun y => y ≠ chair) < (member 7 live).far.holdLevel
    ∧ (∀ c, ((member 7 live).chan c).state ≠ .held)
    ∧ chair ∈ (member 7 (heldAt 7)).far.holdSet ∧ (∀ d, ((member 7 (heldAt 7)).chan d).state = .held ↔ d = 0)
    ∧ ((member 7 (heldAt 7)).chan 0).seat = some ann ∧ ((member 7 (heldAt 7)).chan 0).level = some 1
    ∧ (member 7 (heldAt 7)).levelOfMembers ((member 7 (heldAt 7)).far.holdSet.filter fun y => y ≠ chair) ≤ 1
    ∧ (member 7 (heldAt 7)).unsent ann = none ∧ (member 7 (heldAt 7)).inFlightFor ann ≠ some .unmute := by unfold State.takesEvent; decide +kernel

theorem witness_ChairRecordsNeedTheHolder :
    (∀ s ∈ [live, controlled live, controlled queued, controlled (offering none)], s.takesEvent 0 3 3 chair ∧ s.kindOf chair = .chair ∧ (s.seatRec chair).enabled = true)
    ∧ live.far.holder ≠ some chair ∧ (controlled live).far.holder = some chair ∧ (controlled live).far.list = []
    ∧ (∀ e ∈ (controlled live).far.list, ((controlled live).afterIntake chair 3).promotable e.seat = false)
    ∧ (controlled queued).far.list = [] ++ waitingFor ann 1 :: [] ∧ ((controlled queued).afterIntake chair 3).promotable ann = true
    ∧ (∀ e ∈ (controlled queued).far.list, e.state = .waiting) ∧ (controlled (offering none)).far.holder = some chair
    ∧ (controlled (offering none)).entryOf ann = some (offeredEntry none) ∧ (offeredEntry none).state = .offered
    ∧ (controlled (offering none)).chanOf ann = some 0 ∧ ((controlled (offering none)).chan 0).state = .offered := by
  unfold State.takesEvent; decide +kernel

theorem witness_TakeListNeedsAFreeList :
    (∀ s ∈ [live, controlled live, claimed live], s.takesEvent 0 3 3 chair ∧ s.kindOf chair = .chair ∧ (s.seatRec chair).enabled = true)
    ∧ (controlled live).far.holder = some chair ∧ (claimed live).far.holder ≠ some chair ∧ (claimed live).far.claimed = true
    ∧ live.far.holder = none ∧ live.far.claimed = false ∧ live.far.forceReturn = false := by unfold State.takesEvent; decide +kernel

theorem witness_GiveListReturnsControl : (controlled live).takesEvent 0 3 3 chair ∧ (controlled live).kindOf chair = .chair
    ∧ (controlled live).far.holder = some chair ∧ live.takesEvent 0 3 3 chair ∧ live.kindOf chair = .chair ∧ live.far.holder ≠ some chair := by
  unfold State.takesEvent; decide +kernel

/-- Ann OPENING with her OPEN sent, its muted flag and the hold level. -/
def openingAt (muted : Bool) (level : Fin 8) : State :=
  sent ann (.openMic 0 muted) 1 ((holding 0 { chanFor ann 0 1 .opening with mutedAtOpen := some muted } live).modFar fun f => { f with holdLevel := level })
theorem witness_OpenCompletes : live.awaiting ann = none ∧ (sent ann (.openMic 0 false) 1 live).awaiting ann = some (.openMic 0 false)
    ∧ (sent ann (.openMic 0 false) 1 live).chanOf ann = none
    ∧ (∀ m ∈ [true, false], ∀ l ∈ [(0 : Fin 8), 7], (openingAt m l).awaiting ann = some (.openMic 0 m) ∧ (openingAt m l).chanOf ann = some 0
      ∧ ((openingAt m l).chan 0).state = .opening ∧ ((openingAt m l).chan 0).mutedAtOpen = some m ∧ (openingAt m l).belowHold 0 = decide (l = 7)
      ∧ (openingAt m l).allowanceOf ann = 0 ∧ (openingAt m l).unsent ann = none) := by decide +kernel

theorem witness_MuteAndUnmuteComplete : live.awaiting ann = none
    ∧ (∀ cmd ∈ [Cmd.mute, .unmute], (sent ann cmd 1 live).awaiting ann = some cmd ∧ (sent ann cmd 1 live).chanOf ann = none
      ∧ (∀ l ∈ [(0 : Fin 8), 7], (sent ann cmd 1 (heldAt l)).awaiting ann = some cmd ∧ (sent ann cmd 1 (heldAt l)).chanOf ann = some 0
        ∧ ((sent ann cmd 1 (heldAt l)).chan 0).state = .held ∧ (sent ann cmd 1 (heldAt l)).belowHold 0 = decide (l = 7))) := by decide +kernel

def succeeded (ready : Bool) : State := sent bob .close 1 (if ready then succeeding else succeeding.modSeat ann fun r => { r with enabled := false })
theorem witness_CloseCompletes : live.awaiting ann = none ∧ (sent ann .close 1 live).awaiting ann = some .close ∧ (sent ann .close 1 live).chanOf ann = none
    ∧ closing.awaiting ann = some .close ∧ closing.chanOf ann = some 0 ∧ (closing.chan 0).state = .closing ∧ (closing.chan 0).successor = none
    ∧ (∀ r ∈ [true, false], (succeeded r).awaiting bob = some .close ∧ (succeeded r).chanOf bob = some 0 ∧ ((succeeded r).chan 0).state = .closing
      ∧ ((succeeded r).chan 0).successor = some ann ∧ ((succeeded r).afterDelivery bob).successorValid 0 ann = r
      ∧ ((succeeded r).afterDelivery bob).unsent ann ≠ some .close ∧ ((succeeded r).chan 0).trunk = some ann.trunk
      ∧ ((succeeded r).chan 0).slot = some 0) := by decide +kernel

theorem witness_OfferAndIndicationComplete : live.awaiting ann = none
    ∧ (∀ cmd ∈ [Cmd.withdraw, .queued, .refused, .warn, .listState true, .offer], (sent ann cmd 1 live).awaiting ann = some cmd)
    ∧ (sent ann .offer 1 live).entryOf ann = none ∧ (sent ann .offer 1 (offering none)).awaiting ann = some .offer
    ∧ (sent ann .offer 1 (offering none)).entryOf ann = some (offeredEntry none) ∧ (offeredEntry none).state = .offered
    ∧ (offeredEntry none).deadline = none ∧ (sent ann .offer 1 (offering none)).chanOf ann = some 0
    ∧ ((sent ann .offer 1 (offering none)).chan 0).state = .offered := by decide +kernel

theorem witness_ProbesAndFailedAttemptsSetAvailability : live.awaiting ann = none ∧ (sent ⟨0, 119⟩ .probe 1 live).awaiting ⟨0, 119⟩ = some .probe
    ∧ live.openAttempt 0 = none
    ∧ (∀ n ∈ [2, 3], ∀ s ∈ [live, speaking], (sent ann .warn n s).openAttempt 0 = some ⟨0, .warn, n, 0, .sent⟩) ∧ Cmd.warn ≠ .probe
    ∧ 2 < live.mge.settings.retryLimit ∧ live.mge.settings.retryLimit ≤ 3 ∧ (sent ann .warn 3 live).floorState ann = .idle
    ∧ ann ∉ live.far.holdSet ∧ live.far.holder ≠ some ann ∧ (sent ann .warn 3 speaking).floorState ann = .opened
    ∧ (sent ann .warn 3 speaking).chanOf ann = some 0
    ∧ (∀ x ∈ [(⟨0, 118⟩ : Seat), ann], (sent x .probe 1 live).openAttempt 0 = some ⟨x.pos, .probe, 1, 0, .sent⟩ ∧ posNumber x.pos ≠ 120
      ∧ (sent x .probe 1 live).floorState x = .idle)
    ∧ (live.seatRec ⟨0, 118⟩).availability = .absent ∧ (live.seatRec ann).availability ≠ .absent := by decide +kernel

theorem witness_ReadingRecordsChangeNothing : live.takes (.readSeat (BitVec.ofNat 16 (seatCode eve))) ∧ live.takes (.readClass (BitVec.ofNat 8 (7 : Fin 8)))
    ∧ live.takes (.readZone (BitVec.ofNat 8 (7 : Fin 8))) ∧ live.takes (.readZone 8) ∧ live.takes (.readTrunk (BitVec.ofNat 8 (3 : Fin 4)))
    ∧ live.takes .readChannels ∧ live.takes (.readList 63 1) ∧ (63 : Byte).toNat ≤ 63 ∧ (1 : Byte) ≠ 0 ∧ live.takes .readMix ∧ live.takes .readStatus
    ∧ live.takes (.grant 505) ∧ 504 < (505 : BitVec 16).toNat ∧ live.takes (.close 121) ∧ (121 : BitVec 16).toNat ≤ 504 ∧ 120 < (121 : BitVec 16).toNat % 128
    ∧ live.takes (.insertRequest 128 0) ∧ (128 : BitVec 16).toNat % 128 = 0 ∧ live.takes (.cancelRequest 0)
    ∧ live.takes (.readClass 8) ∧ 7 < (8 : Byte).toNat ∧ live.takes (.readZone 9) ∧ 8 < (9 : Byte).toNat ∧ live.takes (.readTrunk 4)
    ∧ live.takes (.readList 64 1) ∧ 63 < (64 : Byte).toNat ∧ live.takes (.readList 0 0) := by unfold State.takes; decide +kernel

theorem witness_IdentAndSettingsAreRead : live.takes .readIdent ∧ live.takes .readSettings := by unfold State.takes; decide +kernel

/-- Eight chair seats; the sitting open. -/
def eightChairs : State := [⟨2, 0⟩, ⟨2, 1⟩, ⟨2, 2⟩, ⟨2, 3⟩, ⟨2, 4⟩, ⟨2, 5⟩, ⟨2, 6⟩].foldl (fun s x => seated x 7 s) live
def sitting : State := live.modMge fun m => { m with sittingOpen := true }
def moveTo (cls : Byte) : LoadSeatParams := ⟨1, 2, some 0, some cls, none, none⟩
def trimOnly : LoadSeatParams := ⟨1, 2, none, none, some 3, none⟩
theorem witness_SeatingRecordsWriteWhatTheyName_loadSeat :
    (∀ p ∈ [moveTo 3, trimOnly, ⟨1, 2, none, none, none, none⟩], p.fieldsOk = true ∧ p.seatsOk = true)
    ∧ LoadSeatParams.fieldsOk ⟨2, 1, none, none, none, none⟩ = false ∧ LoadSeatParams.fieldsOk ⟨0, 1, none, none, none, none⟩ = true
    ∧ LoadSeatParams.seatsOk ⟨0, 1, none, none, none, none⟩ = false
    ∧ LoadSeatParams.empty ⟨1, 2, none, none, none, none⟩ = true ∧ (moveTo 3).empty = false ∧ trimOnly.empty = false
    ∧ (∀ s ∈ [live, sitting, eightChairs], s.takes (.loadSeat (moveTo 3)) ∧ s.takes (.loadSeat (moveTo 7)) ∧ s.takes (.loadSeat trimOnly))
    ∧ sitting.mge.sittingOpen = true ∧ (∃ x ∈ (moveTo 3).range, ((moveTo 3).apply (sitting.seatRec x)).cls ≠ (sitting.seatRec x).cls)
    ∧ eightChairs.mge.sittingOpen = false ∧ 8 < ((moveTo 7).stbAfter eightChairs.stb).chairCount
    ∧ eightChairs.stb.chairCount < ((moveTo 7).stbAfter eightChairs.stb).chairCount
    ∧ live.mge.sittingOpen = false ∧ ((moveTo 3).stbAfter live.stb).chairCount ≤ 8
    ∧ (∀ x ∈ trimOnly.range, (trimOnly.apply (sitting.seatRec x)).cls = (sitting.seatRec x).cls) ∧ (trimOnly.stbAfter sitting.stb).chairCount ≤ 8
    ∧ ann ∈ (moveTo 3).range ∧ (live.seatRec ann).enabled = true ∧ ((moveTo 3).apply (live.seatRec ann)).enabled = false := by
  unfold State.takes; decide +kernel

def kindOf0 (kind : Byte) : SetClassParams := ⟨0, some kind, none, none, none, none, none, none, none⟩
def chairClassTo (kind : Byte) : SetClassParams := { kindOf0 kind with cls := 7 }
theorem witness_SeatingRecordsWriteWhatTheyName_setClass :
    (∀ s ∈ [live, sitting], s.takes (.setClass (kindOf0 1)) ∧ s.takes (.setClass (chairClassTo 0)) ∧ s.takes (.setClass ⟨8, none, none, none, none, none, none, none, none⟩))
    ∧ 7 < (8 : Byte).toNat ∧ (kindOf0 3).codesOk = false ∧ (kindOf0 1).codesOk = true ∧ (kindOf0 1).cls.toNat = (0 : Fin 8).val
    ∧ sitting.mge.sittingOpen = true ∧ ((kindOf0 1).apply (vget sitting.stb.classes 0)).kind ≠ (vget sitting.stb.classes 0).kind
    ∧ live.mge.sittingOpen = false ∧ 8 < (live.stb.setClass 0 ((kindOf0 1).apply (vget live.stb.classes 0))).chairCount
    ∧ live.stb.chairCount < (live.stb.setClass 0 ((kindOf0 1).apply (vget live.stb.classes 0))).chairCount
    ∧ (chairClassTo 0).cls.toNat = (7 : Fin 8).val ∧ (chairClassTo 0).codesOk = true
    ∧ (live.stb.setClass 7 ((chairClassTo 0).apply (vget live.stb.classes 7))).chairCount ≤ 8
    ∧ (live.seatRec chair).cls = 7 ∧ (vget live.stb.classes 7).kind = .chair ∧ ((chairClassTo 0).apply (vget live.stb.classes 7)).kind ≠ .chair := by
  unfold State.takes; decide +kernel

def zoneAll : SetZoneParams := ⟨7, some 1, some 1, some 504, some 13⟩
def zoneNone : SetZoneParams := ⟨7, none, none, none, none⟩
theorem witness_SeatingRecordsWriteWhatTheyName_setZone : live.takes (.setZone zoneAll) ∧ sitting.takes (.setZone zoneAll)
    ∧ sitting.takes (.setZone zoneNone) ∧ live.takes (.setZone { zoneAll with zone := 8 }) ∧ 7 < (8 : Byte).toNat ∧ zoneAll.fieldsOk = true
    ∧ zoneAll.zone.toNat = (7 : Fin 8).val ∧ sitting.mge.sittingOpen = true ∧ zoneAll.empty = false ∧ live.mge.sittingOpen = false
    ∧ zoneNone.empty = true ∧ zoneNone.fieldsOk = true := by unfold State.takes; decide +kernel

theorem witness_TrunkRecordsActByLinkState :
    (∀ i ∈ [Instr.census 4, .abortCensus 4, .holdTrunk 4, .releaseTrunk 4], live.takes i) ∧ 3 < (4 : Byte).toNat
    ∧ (∀ s ∈ [live, speaking, probing, down, heldTrunk], ∀ i ∈ [Instr.census 0, .abortCensus 0, .holdTrunk 0, .releaseTrunk 0], s.takes i)
    ∧ (0 : Byte).toNat = (0 : Fin 4).val ∧ (probing.tpc 0).censusRunning = true ∧ (live.tpc 0).censusRunning = false
    ∧ (down.tpc 0).censusRunning = false ∧ (down.tpc 0).link ≠ .up ∧ (speaking.tpc 0).censusRunning = false
    ∧ (speaking.chan 0).state ≠ .free ∧ (speaking.chan 0).seat = some ann ∧ ann.trunk = 0
    ∧ (live.tpc 0).link = .up ∧ (∀ c, (live.chan c).state = .free) ∧ live.far.list = [] ∧ (heldTrunk.tpc 0).link = .held
    ∧ (live.tpc 0).link ≠ .held := by unfold State.takes; decide +kernel

theorem witness_CloseRecordsCloseChannels :
    (∀ s ∈ [live, queued, closing, speaking, heldAt 7, succeeding], s.takes (.close (BitVec.ofNat 16 (seatCode ann))) ∧ s.takes .closeAll)
    ∧ live.floorState ann = .idle ∧ queued.floorState ann = .waiting ∧ closing.floorState ann = .closing ∧ closing.chanOf ann = some 0
    ∧ speaking.floorState ann = .opened ∧ speaking.chanOf ann = some 0 ∧ (heldAt 7).floorState ann = .held ∧ (heldAt 7).chanOf ann = some 0
    ∧ succeeding.floorState ann = .succeeding ∧ succeeding.successorChan ann = some 0
    ∧ (∀ c, (speaking.chan c).state ≠ .offered) ∧ ((offering none).chan 0).state = .offered ∧ ((offering none).chan 0).seat = some ann
    ∧ (offering none).chanOf ann = some 0 ∧ (offering none).takes .closeAll := by unfold State.takes; decide +kernel

theorem witness_ListRecordsEditTheList :
    (∀ s ∈ [live, queued, speaking, longList, controlled live, offering none], s.takes (.insertRequest (BitVec.ofNat 16 (seatCode ann)) 255)
      ∧ s.takes (.cancelRequest (BitVec.ofNat 16 (seatCode ann))) ∧ s.takes .clearList)
    ∧ (controlled live).far.holder ≠ none ∧ live.far.holder = none ∧ queued.floorState ann ≠ .idle ∧ longList.floorState ann = .idle
    ∧ 64 ≤ longList.far.list.length ∧ live.floorState ann = .idle ∧ live.far.list.length < 64 ∧ (live.seatRec ann).availability = .present
    ∧ (live.seatRec ann).enabled = true ∧ live.kindOf ann ≠ .listener ∧ (live.tpc ann.trunk).link = .up ∧ (longList.seatRec ann).availability = .present
    ∧ live.entryOf ann = none ∧ queued.entryOf ann = some (waitingFor ann 1) ∧ queued.listIndex ann = some 0 ∧ queued.far.holder = none
    ∧ (offering none).entryOf ann = some (offeredEntry none) ∧ (offering none).listIndex ann = some 0 ∧ (offering none).chanOf ann = some 0
    ∧ ((offering none).chan 0).state = .offered ∧ (∀ e ∈ queued.far.list, e.state = .waiting) := by unfold State.takes; decide +kernel

theorem witness_NextAndGrantGiveTheFloor :
    (∀ s ∈ [live, queued, speaking, crowded, disabled, controlled live], s.takes .next ∧ s.takes (.grant (BitVec.ofNat 16 (seatCode ann))))
    ∧ (controlled live).far.holder ≠ none ∧ live.far.holder = none ∧ (∀ e ∈ live.far.list, live.promotable e.seat = false)
    ∧ queued.far.holder = none ∧ queued.far.list = [] ++ waitingFor ann 1 :: [] ∧ queued.promotable ann = true ∧ queued.mge.settings.confirm = false
    ∧ queued.freeChan = some 0 ∧ queued.freeSlot none ann.trunk = some 0 ∧ queued.unsent ann ≠ some .close ∧ queued.entryOf ann ≠ none
    ∧ speaking.floorState ann = .opened ∧ disabled.floorState ann = .idle ∧ disabled.seatConditions ann = false ∧ crowded.floorState ann = .idle
    ∧ crowded.seatConditions ann = true ∧ crowded.roomConditions none ann = false ∧ crowded.far.holder = none ∧ disabled.far.holder = none
    ∧ live.floorState ann = .idle ∧ live.seatConditions ann = true ∧ live.roomConditions none ann = true ∧ live.freeChan = some 0
    ∧ live.freeSlot none ann.trunk = some 0 ∧ live.unsent ann = none := by unfold State.takes; decide +kernel

def forced (s : State) : State := s.modFar fun f => { f with forceReturn := true }
theorem witness_ListControlRecordsChangeTheClaim :
    (∀ s ∈ [live, claimed live, controlled live, forced live], s.takes .claimList ∧ s.takes .yieldList ∧ s.takes (.forceList 0) ∧ s.takes (.forceList 1)
      ∧ s.takes (.forceList 2))
    ∧ 1 < (2 : Byte).toNat ∧ (controlled live).far.holder = some chair ∧ live.far.holder = none ∧ live.far.claimed = false ∧ live.far.forceReturn = false
    ∧ (claimed live).far.holder = none ∧ (claimed live).far.claimed = true ∧ (forced live).far.holder = none ∧ (forced live).far.forceReturn = true := by
  unfold State.takes; decide +kernel

def batching (n : Nat) : State := live.modMge fun m => { m with batch := some n }
theorem witness_BatchesCountAndFlagsClear : (batching 2).takes (.batch 3) ∧ (batching 2).mge.batch ≠ none ∧ live.takes (.batch 0) ∧ live.takes (.batch 255)
    ∧ live.mge.batch = none ∧ (255 : Byte) ≠ 0 ∧ (batching 2).mge.batch = some 2 ∧ (batching 1).mge.batch = some 1 ∧ live.takes (.clearStatus 0xFFFF)
    ∧ live.takes (.unknownRecord 0x59) ∧ recordLength 0x59 = none ∧ live.takes (.unknownRecord 0x58) ∧ recordLength 0x58 ≠ none := by
  unfold State.takes; decide +kernel

theorem witness_MasksTakeTheirEnables : (∀ i : Fin 14, (0x3FFF : BitVec 14).getLsbD i = ((Vector.replicate 14 (1 : Byte))[i] == 1))
    ∧ (∀ i : Fin 14, (0 : BitVec 14).getLsbD i = ((Vector.replicate 14 (2 : Byte))[i] == 1))
    ∧ live.takes (.setNotices (Vector.replicate 14 1)) ∧ live.takes (.setReport (Vector.replicate 14 1))
    ∧ live.takes (.setNotices (Vector.replicate 14 2)) ∧ live.takes (.setReport (Vector.replicate 14 2))
    ∧ (∃ i : Fin 14, (Vector.replicate 14 (2 : Byte))[i] ≠ 0 ∧ (Vector.replicate 14 (2 : Byte))[i] ≠ 1)
    ∧ ¬ (∃ i : Fin 14, (Vector.replicate 14 (1 : Byte))[i] ≠ 0 ∧ (Vector.replicate 14 (1 : Byte))[i] ≠ 1) := by
  unfold State.takes; decide +kernel

theorem witness_SetFloorReplacesSettings : live.takes (.setFloor { noSettings with mode := some 3 })
    ∧ SetFloorParams.codesOk { noSettings with mode := some 3 } = false ∧ speaking.takes (.setFloor { noSettings with levelMonitor := some 0 })
    ∧ SetFloorParams.codesOk { noSettings with levelMonitor := some 0 } = true := by unfold State.takes; decide +kernel

theorem witness_SittingOpensAndCloses : live.takes .openSitting ∧ live.mge.sittingOpen = false ∧ sitting.takes .openSitting ∧ sitting.mge.sittingOpen = true
    ∧ live.takes .closeSitting ∧ sitting.takes .closeSitting := by unfold State.takes; decide +kernel

/-- CLOSE_SITTING ends an offer with its entry and its channel (R185 step 1). -/
theorem test_close_sitting_ends_offer :
    (after .closeSitting ((offering none).modMge fun m => { m with sittingOpen := true })).chan 0 = Channel.reset
    ∧ (after .closeSitting ((offering none).modMge fun m => { m with sittingOpen := true })).far.list = [] := by decide +kernel

theorem witness_StepKeepsRangesAndCapacities : live.mge.settings.legal ∧ live.withinCapacities ∧ live.stb.chairCount ≤ 8
    ∧ step live = .next live := by
  refine ⟨by unfold Settings.legal; decide +kernel, ?_, by decide +kernel, rfl⟩
  refine ⟨by decide +kernel, by decide +kernel, by decide +kernel, by decide +kernel, fun n h => ?_, by decide +kernel, by decide +kernel⟩
  have : live.mge.batch = none := by decide +kernel
  rw [this] at h; cases h

theorem witness_StepKeepsFloorTableExact : speaking.openSeqExact ∧ speaking.slotsExclusive ∧ step speaking = .next speaking := by
  refine ⟨by unfold State.openSeqExact; decide +kernel, ⟨by decide +kernel, fun c h => ?_, by decide +kernel⟩, rfl⟩
  have h0 : ∀ c, (speaking.chan c).state ≠ .free → c = 0 := by decide +kernel
  obtain rfl := h0 c h
  exact ⟨ann, 0, by decide +kernel, by decide +kernel, by decide +kernel⟩

theorem witness_SittingLocksTheSeating : sitting.mge.sittingOpen = true ∧ Instr.loadSeat trimOnly ≠ .powerOnReset
    ∧ Instr.loadSeat trimOnly ≠ .brownoutReset ∧ Instr.loadSeat trimOnly ≠ .pinReset
    ∧ ((after (.loadSeat trimOnly) sitting).seatRec ann).trim = 3 := by decide +kernel

theorem witness_RecordsReadBackAsWritten : Instr.wellFormed (.loadSeat (moveTo 3)) = true ∧ (encodeRecord (.loadSeat (moveTo 3))).isSome = true
    ∧ Instr.wellFormed (.setNotices (Vector.replicate 14 1)) = true ∧ (encodeRecord (.setNotices (Vector.replicate 14 1))).isSome = true := by decide

/-! ### Further forms of the statements: one state and its operands for each -/

/-- A downstream hall frame with its number, packet-start mark and lane bytes. -/
def downFrame (number : Byte) (start : Bool) (bytes : List Byte) : List Byte :=
  let body := number :: BitVec.ofNat 8 ((if start then 128 else 0) + bytes.length) :: (bytes ++ List.replicate (4 - bytes.length) 0)
  0xC3 :: (body ++ [crc8 body])
theorem witness_LaneAcceptsCompletedPacket_assembly :
    (∀ f ∈ [downFrame 6 false [], downFrame 8 false [1], downFrame 6 true [0], downFrame 6 true [0, 5], downFrame 6 true [0, 6],
      downFrame 6 true [1, 0], downFrame 6 true [1, 1]], hallFrameOk f = true)
    ∧ laneCount (downFrame 6 false []) = 0 ∧ (assembling 0).hli.lastFrame ≠ some ((downFrame 8 false [1]).getD 1 0 - 1)
    ∧ packetStart (downFrame 8 false [1]) = false ∧ laneCount (downFrame 8 false [1]) ≠ 0
    ∧ (∀ bytes ∈ [[0], [0, 5], [0, 6], [1, 0], [1, 1]], packetStart (downFrame 6 true bytes) = true ∧ laneBytes (downFrame 6 true bytes) = bytes
      ∧ laneCount (downFrame 6 true bytes) ≠ 0)
    ∧ packetLength [0, 5] < 6 ∧ packetLength [0, 6] = 6 ∧ packetLength [1, 0] = 256 ∧ 256 < packetLength [1, 1] := by decide +kernel

/-- The lane of a hall link that is UP: nine notices and no ready reply; a reply behind one that waits; a packet on its way. -/
def noticing : State := (hallUp 0).modHli fun h => { h with noticeQueue := List.replicate 9 (.trunk 0 .up), replyQueue := [place [[0x27, 2]]] }
def replying : State := (hallUp 0).modHli fun h => { h with replyQueue := [place [[0x27, 2]], place []] }
def onLane (source : LaneSource) (sent : Nat) : State :=
  (hallUp 0).modHli fun h => { h with laneSender := some ⟨source, [0, 6, 1, 2, 3, 4], sent⟩ }
theorem witness_HallFrameSendBuildsFrame_lane : noticing.running = true ∧ noticing.hli.link = .up ∧ noticing.hli.laneSender = none
    ∧ (∀ p ∈ noticing.hli.replyQueue, p.waiting ≠ []) ∧ noticing.hli.noticeQueue ≠ []
    ∧ replying.running = true ∧ replying.hli.link = .up ∧ replying.hli.laneSender = none
    ∧ replying.hli.replyQueue = [place [[0x27, 2]]] ++ place [] :: [] ∧ (place [[0x27, 2]]).waiting ≠ [] ∧ (place []).waiting = []
    ∧ (∀ source ∈ [LaneSource.reply 0, .notices 1], (onLane source 0).running = true ∧ (onLane source 0).hli.link = .up
      ∧ (onLane source 1).hli.link = .up ∧ (onLane source 2).hli.link = .up)
    ∧ 1 + 4 < [0, 6, 1, 2, 3, 4].length ∧ [0, 6, 1, 2, 3, 4].length ≤ 2 + 4 := by decide +kernel

/-- The window of ann's channel just full. -/
def filled (s : State) : State := s.modSlm 0 fun m => { m with progress := some 256, exponent := some 8 }
theorem witness_LevelWindowGatesAndReleases_full : (windowed.slmOf 0).progress = some 255 ∧ 255 < 2 ^ 8 ∧ ((filled windowed).slmOf 0).progress = some 256
    ∧ ((filled windowed).chan 0).state = .opened ∧ ((filled windowed).chan 0).seat = some ann ∧ ((filled windowed).classOf ann).silenceRelease = false
    ∧ (filled windowed).mge.settings.levelMonitor = true ∧ (filled silent).mge.settings.levelMonitor = true
    ∧ ((filled silent).chan 0).state = .opened ∧ ((filled silent).chan 0).seat = some ann
    ∧ ((filled silent).classOf ann).silenceRelease = true
    ∧ ((filled silent).slmOf 0).sum / 2 ^ 8 < (filled silent).mge.settings.releaseThreshold
    ∧ (filled silent).mge.settings.silenceCountSetting ≤ min 255 (((filled silent).slmOf 0).silenceCount + 1) := by decide +kernel

/-- Bob, disabled, WAITING before ann and the chair behind her; and that list with bob alone not eligible at the end. -/
def passing : State := (owed (live.modSeat bob fun r => { r with enabled := false })).modFar fun f =>
  { f with list := [waitingFor bob 2, waitingFor ann 1, { waitingFor chair 7 with kind := .chair }] }
def lastPassed : State := passing.modFar fun f => { f with list := [waitingFor ann 1, waitingFor bob 2] }
theorem witness_PromotionRunsAtEndOfHandling_run :
    (∀ s ∈ [passing, confirming passing], s.mge.batch = none ∧ s.far.promotionDeferred = true ∧ s.mge.settings.mode ≠ .list
      ∧ s.promotable bob = false ∧ s.promotable ann = true ∧ s.listIndex ann = some 1 ∧ s.freeChan = some 0
      ∧ s.freeSlot none ann.trunk = some 0 ∧ s.unsent ann ≠ some .close)
    ∧ passing.mge.settings.confirm = false ∧ (confirming passing).mge.settings.confirm = true
    ∧ lastPassed.mge.batch = none ∧ lastPassed.far.promotionDeferred = true ∧ lastPassed.mge.settings.mode ≠ .list
    ∧ lastPassed.far.list = [] ++ waitingFor ann 1 :: [waitingFor bob 2] ∧ lastPassed.promotable ann = true
    ∧ State.promotable (State.promote ann { lastPassed with far := { lastPassed.far with promotionDeferred := false } }) bob = false := by
  decide +kernel

/-- Trunk 0 UP with ann speaking on slot 0, an attempt of hers in flight since a frame sent so many frames before the last, 255. -/
def flown (back : Byte) (status : FlightStatus) : State := windowed.modTpc 0 fun p => { p with inFlight := some ⟨0, .warn, 1, 255 - back, status⟩ }
/-- A frame that answers frame 254. -/
def olderAnswer : List Byte :=
  let body := 0xFE :: List.replicate 21 0
  0x5A :: (body ++ [crc8 body])
theorem witness_TrunkFollowsFrameRuns_contents :
    (∀ s ∈ [windowed, flown 0 .sent, flown 1 .sent, flown 0 .retry], s.running = true ∧ (s.tpc 0).link = .up ∧ s.slotHolder none 0 0 = some 0
      ∧ s.slotHolder none 0 1 = none ∧ (s.slmOf 0).progress = some 255)
    ∧ quiet.getD 1 0 = 255 ∧ olderAnswer.getD 1 0 = 254 ∧ (windowed.tpc 0).nextFrame = 0 ∧ (windowed.tpc 0).goodFrame olderAnswer = true
    ∧ ((flown 0 .sent).tpc 0).inFlight = some ⟨0, .warn, 1, 255, .sent⟩ ∧ ((flown 1 .sent).tpc 0).inFlight = some ⟨0, .warn, 1, 254, .sent⟩
    ∧ (speaking.slmOf 0).progress = none
    ∧ (∀ ack ∈ [[(0 : Byte), 0], [129, 0], [130, 0]], (windowed.tpc 0).goodFrame (upFrame [0, 0, 0] ack) = true)
    ∧ (upAck (upFrame [0, 0, 0] [129, 0])).map UpAck.position = some 1 ∧ (upAck (upFrame [0, 0, 0] [130, 0])).map UpAck.position = some 2
    ∧ upAck quiet = none ∧ completionOf .warn ann .done 0 = some (.indicationComplete ann .done)
    ∧ upEventAt (upFrame [129, 0x13, 0] [0, 0]) 2 = some ⟨1, 1, 3, 0⟩ ∧ eventKindOfCode 1 = some .micPress ∧ eventKindOfCode 9 = none
    ∧ seatOfPosition 0 1 = some ann ∧ seatOfPosition 0 121 = none := by decide +kernel

/-- The chair in the hold set and holding the list. -/
def chairing : State := controlled (member 7 live)
theorem witness_HelloRestartsUnit_floor :
    (∀ s ∈ [offering none, opening, unsentOpen, heldAt 7, succeeding], s.takesEvent 0 1 3 ann ∧ (s.seatRec ann).availability = .present)
    ∧ (offering none).entryOf ann = some (offeredEntry none) ∧ (offeredEntry none).state = .offered ∧ (offering none).listIndex ann = some 0
    ∧ (offering none).chanOf ann = some 0 ∧ ((offering none).chan 0).state = .offered
    ∧ opening.floorState ann = .opening ∧ opening.openUnsent ann = false ∧ opening.chanOf ann = some 0
    ∧ unsentOpen.floorState ann = .opening ∧ unsentOpen.openUnsent ann = true ∧ unsentOpen.chanOf ann = some 0
    ∧ (heldAt 7).floorState ann = .held ∧ (heldAt 7).chanOf ann = some 0
    ∧ succeeding.floorState ann = .succeeding ∧ succeeding.successorChan ann = some 0
    ∧ chairing.takesEvent 0 3 3 chair ∧ (chairing.seatRec chair).availability = .present ∧ chairing.floorState chair = .idle
    ∧ chair ∈ chairing.far.holdSet ∧ chairing.far.holder = some chair ∧ chairing.levelOfMembers [] < chairing.far.holdLevel := by
  unfold State.takesEvent; decide +kernel

theorem witness_CloseRecordsCloseChannels_offers :
    (∀ s ∈ [offering none, opening, unsentOpen], s.takes (.close (BitVec.ofNat 16 (seatCode ann))))
    ∧ (offering none).entryOf ann = some (offeredEntry none) ∧ (offeredEntry none).state = .offered ∧ (offering none).listIndex ann = some 0
    ∧ (offering none).chanOf ann = some 0 ∧ ((offering none).chan 0).state = .offered
    ∧ opening.floorState ann = .opening ∧ opening.openUnsent ann = false ∧ opening.chanOf ann = some 0
    ∧ unsentOpen.floorState ann = .opening ∧ unsentOpen.openUnsent ann = true ∧ unsentOpen.chanOf ann = some 0
    ∧ (waitingFor bob 2).seat ≠ ann := by unfold State.takes; decide +kernel

/-- Ann CLOSING on channel 0, her CLOSE not yet sent. -/
def unsentClose : State := (holding 0 (chanFor ann 0 1 .closing) live).place ann .close
theorem witness_NextAndGrantGiveTheFloor_grant :
    (∀ s ∈ [queued, unsentClose], s.takes (.grant (BitVec.ofNat 16 (seatCode ann))) ∧ s.far.holder = none ∧ s.seatConditions ann = true
      ∧ s.roomConditions none ann = true)
    ∧ queued.floorState ann = .waiting ∧ queued.listIndex ann = some 0 ∧ queued.freeChan = some 0 ∧ queued.freeSlot none ann.trunk = some 0
    ∧ queued.unsent ann ≠ some .close
    ∧ unsentClose.floorState ann = .closing ∧ unsentClose.unsent ann = some .close ∧ unsentClose.inFlightFor ann = none
    ∧ unsentClose.chanOf ann = some 0 ∧ unsentClose.freeChan = some 1 ∧ unsentClose.freeSlot none ann.trunk = some 1
    ∧ (unsentClose.chan 0).successor = none
    ∧ closing.floorState ann = .closing ∧ closing.inFlightFor ann ≠ none := by unfold State.takes; decide +kernel

/-- The grant of a CLOSING seat ends the close of its old channel (R113). -/
theorem test_grant_ends_unsent_close : ((after (.grant 1) unsentClose).chan 0).state = .free ∧ ((after (.grant 1) unsentClose).chan 1).state = .opening
    ∧ (after (.grant 1) unsentClose).unsent ann = some (.openMic 1 false) := by decide +kernel

theorem witness_ended_offers_stand_in_the_list : (offering (some 1)).listIndex ann = some 0 ∧ (offering (some 5)).listIndex ann = some 0
    ∧ keyed.listIndex ann = some 0 ∧ (sent ann .offer 1 (offering none)).listIndex ann = some 0 := by decide +kernel

/-- Ann HELD, her MUTE not yet sent, and the chair in the hold set. -/
def unsentMute : State := (member 7 (heldAt 7)).place ann .mute
theorem witness_PriorityUpLowersTheHold_mute : unsentMute.takesEvent 0 3 3 chair ∧ unsentMute.kindOf chair = .chair
    ∧ chair ∈ unsentMute.far.holdSet ∧ (∀ d, (unsentMute.chan d).state = .held ↔ d = 0) ∧ (unsentMute.chan 0).seat = some ann
    ∧ (unsentMute.chan 0).level = some 1
    ∧ unsentMute.levelOfMembers (unsentMute.far.holdSet.filter fun y => y ≠ chair) ≤ 1
    ∧ unsentMute.levelOfMembers (unsentMute.far.holdSet.filter fun y => y ≠ chair) < unsentMute.far.holdLevel
    ∧ unsentMute.unsent ann = some .mute ∧ unsentMute.inFlightFor ann ≠ some .unmute ∧ (unsentMute.tpc ann.trunk).link = .up
    ∧ (unsentMute.seatRec ann).availability = .present := by unfold State.takesEvent; decide +kernel

/-! ### Time, lost seats and barred seats -/

/-- Ann OPEN in overtime under a speaking limit; bob OFFERED channel 1, his deadline at 1; the second phase at `phase`. -/
def alsoOffered (s : State) : State :=
  (holding 1 { chanFor bob 1 2 .offered with mutedAtOpen := none, cause := some .promoted } s).modFar fun f =>
    { f with list := [{ waitingFor bob 2 with state := .offered, window := some 100, deadline := some 1 }] }
def due (phase : Nat) : State := (alsoOffered overtimeClose).modMge fun m => { m with secondPhase := phase }
theorem witness_DecisecondAdvancesOpenClocks_due :
    (∀ phase ∈ [8, 9], (due phase).running = true ∧ (due phase).mge.secondPhase = phase)
    ∧ (∀ s ∈ [speaking, overtime, overtimeClose], (s.chan 0).state = .opened ∧ (s.chan 0).seat = some ann)
    ∧ speaking.allowanceOf ann = 0 ∧ overtime.allowanceOf ann = 1 ∧ 1 * 10 ≤ (overtime.slmOf 0).clock ∧ (overtime.classOf ann).action = .notify
    ∧ overtimeClose.allowanceOf ann = 1 ∧ 1 * 10 ≤ (overtimeClose.slmOf 0).clock ∧ (overtimeClose.classOf ann).action = .close
    ∧ (due 8).entryOf bob = some { waitingFor bob 2 with state := .offered, window := some 100, deadline := some 1 }
    ∧ (due 8).listIndex bob = some 0 ∧ (due 8).chanOf bob = some 1 ∧ ((due 8).chan 1).state = .offered := by decide +kernel

/-- One decisecond expiry closes ann's channel at her limit and lapses bob's offer, with a second expiry or without (R84, R141). -/
theorem test_decisecond_closes_and_lapses : ∀ phase ∈ [8, 9], ((after .decisecondExpiry (due phase)).chan 0).closeCause = some .time
    ∧ ((after .decisecondExpiry (due phase)).seatRec ann).speakingTotal = 11 ∧ ((after .decisecondExpiry (due phase)).chan 1).state = .free
    ∧ (after .decisecondExpiry (due phase)).far.list = [] ∧ (after .decisecondExpiry (due phase)).mge.lapsed = 1
    ∧ (after .decisecondExpiry (due phase)).mge.secondPhase = (phase + 1) % 10 := by decide +kernel

/-- Ann OPENING with an allowance in seconds. -/
def openingFor (allowance : Nat) : State := (openingAt false 0).modSeat ann fun r => { r with override := some allowance }
theorem witness_OpenCompletes_comparison : ∀ a ∈ [30, 31], (openingFor a).awaiting ann = some (.openMic 0 false) ∧ (openingFor a).chanOf ann = some 0
    ∧ ((openingFor a).chan 0).state = .opening ∧ ((openingFor a).chan 0).mutedAtOpen = some false ∧ (openingFor a).belowHold 0 = false
    ∧ (openingFor a).allowanceOf ann = a ∧ (openingFor a).mge.settings.warnLead = 30 ∧ ((openingFor a).slmOf 0).warned = false := by decide +kernel

/-- An allowance at the warn lead is warned at the entry to OPEN, behind CH_OPEN; one above it is not (R140, 7.8 Step 1; log entry 34). -/
theorem test_open_warns_at_entry : (after (.openComplete ann .done) (openingFor 30)).hli.noticeQueue.map Notice.code = [1, 8]
    ∧ (after (.openComplete ann .done) (openingFor 31)).hli.noticeQueue.map Notice.code = [1] := by decide +kernel

/-- Every floor state of a seat of trunk 0, its last attempt in flight or its probe. -/
theorem witness_ProbesAndFailedAttemptsSetAvailability_floor :
    (∀ cmd ∈ [Cmd.close, .probe], ∀ s ∈ [live, queued, offering none, opening, speaking, heldAt 7, closing, succeeding],
      (sent ann cmd 3 s).openAttempt 0 = some ⟨0, cmd, 3, 0, .sent⟩ ∧ s.mge.settings.retryLimit ≤ 3 ∧ (s.seatRec ann).availability = .present)
    ∧ (sent ⟨0, 119⟩ .probe 1 probing).openAttempt 0 = some ⟨119, .probe, 1, 0, .sent⟩ ∧ (probing.seatRec ⟨0, 119⟩).availability = .absent
    ∧ posNumber 119 = 120
    ∧ live.floorState ann = .idle ∧ queued.floorState ann = .waiting ∧ queued.listIndex ann = some 0
    ∧ (offering none).entryOf ann = some (offeredEntry none) ∧ (offering none).listIndex ann = some 0 ∧ (offering none).chanOf ann = some 0
    ∧ ((offering none).chan 0).state = .offered ∧ (offeredEntry none).state = .offered
    ∧ (∀ s ∈ [opening, speaking, heldAt 7, closing], s.chanOf ann = some 0) ∧ opening.floorState ann = .opening
    ∧ speaking.floorState ann = .opened ∧ (heldAt 7).floorState ann = .held ∧ closing.floorState ann = .closing
    ∧ (closing.chan 0).successor = none ∧ succeeding.floorState ann = .succeeding ∧ succeeding.successorChan ann = some 0
    ∧ (∀ r ∈ [true, false], (succeeded r).floorState bob = .closing ∧ (succeeded r).chanOf bob = some 0
      ∧ ((succeeded r).chan 0).successor = some ann ∧ (succeeded r).successorValid 0 ann = r ∧ (succeeded r).unsent ann ≠ some .close
      ∧ ((succeeded r).chan 0).trunk = some ann.trunk ∧ ((succeeded r).chan 0).slot = some 0) := by decide +kernel

/-- The last failed attempt of a CLOSE frees the channel with its recorded cause; an unanswered probe to position 120 completes the census. -/
theorem test_failed_close_and_last_probe : ((after (.commandAttemptFailed 0) (sent ann .close 3 closing)).chan 0).state = .free
    ∧ ((after (.commandAttemptFailed 0) (sent ann .close 3 closing)).seatRec ann).availability = .unreachable
    ∧ ((after (.commandAttemptFailed 0) (sent ⟨0, 119⟩ .probe 1 probing)).tpc 0).censusOutcome = .done
    ∧ (after (.commandAttemptFailed 0) (sent ⟨0, 119⟩ .probe 1 probing)).hasFlag .censusDone = true := by decide +kernel

/-- The floor of `s` as a hold level falls or rises with the chair's membership. -/
def chairGone (s : State) : State := (member 7 s).memberLeft chair
def chairRaised (s : State) : State := s.modFar fun f => { f with holdSet := [chair], holdLevel := 7 }
theorem witness_SeatingRecordsWriteWhatTheyName_level : (chairGone live).far.holdLevel < 7 ∧ (∀ c, ((chairGone live).chan c).state ≠ .held)
    ∧ (chairGone (heldAt 7)).far.holdLevel < 7 ∧ (∀ d, ((chairGone (heldAt 7)).chan d).state = .held ↔ d = 0)
    ∧ ((chairGone (heldAt 7)).chan 0).seat = some ann ∧ ((chairGone (heldAt 7)).chan 0).level = some 1
    ∧ (chairGone (heldAt 7)).far.holdLevel ≤ 1 ∧ (chairGone (heldAt 7)).unsent ann = none ∧ (chairGone (heldAt 7)).inFlightFor ann ≠ some .unmute
    ∧ ((member 6 (heldAt 7)).chan 0).kind = some .delegate ∧ (1 : Fin 8) < (member 6 (heldAt 7)).far.holdLevel
    ∧ (∀ d, ((member 6 (heldAt 7)).chan d).state = .held ↔ d = 0)
    ∧ 0 < (chairRaised speaking).far.holdLevel ∧ ((chairRaised speaking).chan 0).state = .opened ∧ (chairRaised speaking).belowHold 0 = true := by
  decide +kernel

/-- The chair class to another level. -/
def chairLevel (level : Byte) : SetClassParams := ⟨7, none, some level, none, none, none, none, none, none⟩
theorem witness_SeatingRecordsWriteWhatTheyName_floor :
    (∀ s ∈ [live, queued, offering none, opening, unsentOpen, speaking, heldAt 7, closing, succeeding],
      s.takes (.loadSeat (moveTo 3)) ∧ s.takes (.setClass (kindOf0 2)) ∧ s.mge.sittingOpen = false ∧ ann ∈ (moveTo 3).range
      ∧ (s.seatRec ann).enabled = true ∧ ((moveTo 3).apply (s.seatRec ann)).enabled = false ∧ ((moveTo 3).stbAfter s.stb).chairCount ≤ 8)
    ∧ live.floorState ann = .idle ∧ closing.floorState ann = .closing ∧ queued.floorState ann = .waiting ∧ queued.listIndex ann = some 0
    ∧ (offering none).entryOf ann = some (offeredEntry none) ∧ (offering none).listIndex ann = some 0 ∧ (offering none).chanOf ann = some 0
    ∧ ((offering none).chan 0).state = .offered ∧ (∀ s ∈ [opening, unsentOpen, speaking, heldAt 7], s.chanOf ann = some 0)
    ∧ opening.floorState ann = .opening ∧ opening.openUnsent ann = false ∧ unsentOpen.floorState ann = .opening
    ∧ unsentOpen.openUnsent ann = true ∧ speaking.floorState ann = .opened ∧ (heldAt 7).floorState ann = .held
    ∧ succeeding.floorState ann = .succeeding ∧ succeeding.successorChan ann = some 0
    ∧ (member 7 live).takes (.setClass (chairLevel 3)) ∧ (chairLevel 3).codesOk = true ∧ (chairLevel 3).cls.toNat = (7 : Fin 8).val := by
  unfold State.takes; decide +kernel

/-- A disabled speaker is CLOSING with cause DISABLED; a waiting seat made LISTENER is off the list; a member's class level moves the hold level. -/
theorem test_disabled_speaker_closes : ((after (.loadSeat (moveTo 3)) speaking).chan 0).closeCause = some .disabled
    ∧ (after (.loadSeat (moveTo 3)) speaking).unsent ann = some .close := by decide +kernel
theorem test_set_class_clears_and_moves_hold : (after (.setClass ⟨1, some 2, none, none, none, none, none, none, none⟩) queued).far.list = []
    ∧ (after (.setClass (chairLevel 3)) (member 7 (heldAt 7))).far.holdLevel = 3
    ∧ (after (.setClass (chairLevel 1)) (member 7 (heldAt 7))).unsent ann = some .unmute := by decide +kernel

/-! ### Rises and falls with several channels -/

/-- The chair WAITING, ann OPEN below its level and bob OPEN at it, under a priority action. -/
def below (action : PriorityAction) : State :=
  withSettings (fun v => { v with priorityAction := action }) (chairWaits 0 (holding 1 (chanFor bob 1 7 .opened) speaking))
/-- The list full of delegates; a batch open; the floor full, its one channel replaceable or not. -/
def fullList (s : State) : State := s.modFar fun f => { f with list := List.replicate 64 (waitingFor eve 1) }
def inBatch (s : State) : State := s.modMge fun m => { m with batch := some 2 }
def noCandidate : State := withSettings (fun v => { v with floorLimit := 1 }) (holding 1 { chanFor bob 1 7 .opened with kind := some .chair } live)
theorem witness_PriorityDownRaisesTheHold_floor :
    (∀ action ∈ [PriorityAction.mute, .close], (below action).takesEvent 0 3 3 chair ∧ (below action).kindOf chair = .chair
      ∧ chair ∉ (below action).far.holdSet ∧ ((below action).seatRec chair).enabled = true ∧ (below action).floorState chair ≠ .idle
      ∧ (below action).far.holdLevel < (below action).levelOfMembers (seatInsert chair (below action).far.holdSet)
      ∧ ((below action).chan 0).state = .opened ∧ ((below action).chan 0).level = some 1 ∧ ((below action).chan 1).level = some 7)
    ∧ (∀ s ∈ [inBatch live, inBatch (fullList live), noCandidate, fullList noCandidate, live, replacing], s.kindOf chair = .chair)
    ∧ (inBatch live).mge.batch ≠ none ∧ (inBatch live).far.list.length < 64 ∧ 64 ≤ (inBatch (fullList live)).far.list.length
    ∧ noCandidate.eligible chair = false ∧ noCandidate.candidate chair = none
    ∧ live.mge.batch = none ∧ live.eligible chair = true ∧ live.unsent chair ≠ some .close ∧ live.freeChan = some 0 ∧ live.freeSlot none 0 = some 0
    ∧ replacing.mge.batch = none ∧ replacing.eligible chair = false ∧ replacing.candidate chair = some 1
    ∧ (replacing.chan 1).seat = some bob := by unfold State.takesEvent; decide +kernel

/-- Under MUTE ann is HELD, MUTE placed; under CLOSE her channel is CLOSING with cause PRIORITY; bob, at the level, stays OPEN (R119). -/
theorem test_rise_holds_or_closes_lower : ((after (.priorityDown 0 3 3 0) (below .mute)).chan 0).state = .held
    ∧ (after (.priorityDown 0 3 3 0) (below .mute)).unsent ann = some .mute
    ∧ ((after (.priorityDown 0 3 3 0) (below .close)).chan 0).closeCause = some .priority
    ∧ (after (.priorityDown 0 3 3 0) (below .close)).unsent ann = some .close
    ∧ (∀ action ∈ [PriorityAction.mute, .close], ((after (.priorityDown 0 3 3 0) (below action)).chan 1).state = .opened) := by decide +kernel

/-- Ann and bob HELD under the chair, ann's MUTE not yet sent. -/
def bothHeld : State := (member 7 (holding 1 (chanFor bob 1 2 .held) (heldAt 7))).place ann .mute
theorem witness_PriorityUpLowersTheHold_several : bothHeld.takesEvent 0 3 3 chair ∧ bothHeld.kindOf chair = .chair ∧ chair ∈ bothHeld.far.holdSet
    ∧ bothHeld.levelOfMembers (bothHeld.far.holdSet.filter fun y => y ≠ chair) < bothHeld.far.holdLevel
    ∧ (bothHeld.chan 0).state = .held ∧ (bothHeld.chan 1).state = .held := by unfold State.takesEvent; decide +kernel

/-- The fall opens ann's channel again at once and places UNMUTE for bob, whose channel stays HELD (R121). -/
theorem test_fall_meets_every_held_channel : ((after (.priorityUp 0 3 3 0) bothHeld).chan 0).state = .opened
    ∧ (after (.priorityUp 0 3 3 0) bothHeld).unsent ann = none ∧ ((after (.priorityUp 0 3 3 0) bothHeld).chan 1).state = .held
    ∧ (after (.priorityUp 0 3 3 0) bothHeld).unsent bob = some .unmute := by decide +kernel

theorem witness_HelloRestartsUnit_several : chair ∈ bothHeld.far.holdSet
    ∧ bothHeld.levelOfMembers (bothHeld.far.holdSet.filter fun y => y ≠ chair) < bothHeld.far.holdLevel := by decide +kernel

end Sys2Proof.Tests
end

section
/-! PROOF. The ranges and capacities every step keeps (O57), and the reset state (O5, O56): each invariant is kept by every `Move`, hence along every
path, and by the few updates of a `Change` that are no moves. -/

namespace Sys2Proof.Machine

/-! ### The seating: what the chair count depends on -/

theorem Stb.sameSeating_trans {a b c : Stb} (h : a.sameSeating b) (h' : b.sameSeating c) : a.sameSeating c := by
  obtain ⟨seats, zones, classes⟩ := h
  obtain ⟨seats', zones', classes'⟩ := h'
  refine ⟨fun i => (seats i).trans (seats' i), zones.trans zones', fun n => ?_⟩
  obtain ⟨kind, level, group⟩ := classes n
  obtain ⟨kind', level', group'⟩ := classes' n
  exact ⟨kind.trans kind', level.trans level', group.trans group'⟩

/-- A change of one seat record that keeps its class keeps the seating. -/
theorem State.modSeat_sameSeating (s : State) (x : Seat) (f : SeatRec → SeatRec) (cls : (f (s.seatRec x)).cls = (s.seatRec x).cls) :
    (s.modSeat x f).stb.sameSeating s.stb := by
  refine ⟨fun i => ?_, rfl, fun _ => ⟨rfl, rfl, rfl⟩⟩
  simp only [State.modSeat, vget_vset]
  split
  · rename_i e
    rw [cls, ← e]
    rfl
  · rfl

/-- A move changes no seat's class, no class record and no zone (R183). -/
theorem Move.sameSeating {o : Bool} {s t : State} (h : Move o s t) : t.stb.sameSeating s.stb := by
  cases h
  case seat x f cls => exact s.modSeat_sameSeating x f cls
  case notice n => rw [State.notify_stb]; exact s.stb.sameSeating_refl
  all_goals exact s.stb.sameSeating_refl

theorem Moves.sameSeating {o : Bool} {s t : State} (h : Moves o s t) : t.stb.sameSeating s.stb :=
  h.keeps (P := fun t => t.stb.sameSeating s.stb) (fun hm => Stb.sameSeating_trans hm.sameSeating) s.stb.sameSeating_refl

/-- The chair count depends on the classes of the seats and the kinds of the classes alone (R9). -/
theorem Stb.chairCount_congr {a b : Stb} (h : a.sameSeating b) : a.chairCount = b.chairCount := by
  obtain ⟨seats, -, classes⟩ := h
  have count : ∀ c : Stb, c.chairCount = (c.seats.map SeatRec.cls).toList.countP fun n => (vget c.classes n).kind = .chair := by
    intro c
    rw [Vector.toList_map, List.countP_map]
    rfl
  have map : a.seats.map SeatRec.cls = b.seats.map SeatRec.cls := vget_ext fun i => by simpa using seats i
  simp only [count, map, (classes _).1]

/-! ### Settings -/

/-- A move leaves the floor settings as they are. -/
theorem Move.settings_eq {o : Bool} {s t : State} (h : Move o s t) : t.mge.settings = s.mge.settings := by
  cases h
  case notice n => exact s.notify_settings n
  case mge f settings _ _ _ _ => exact settings
  all_goals rfl

theorem clampNat_mem {lo hi : Nat} (h : lo ≤ hi) (n : Nat) : lo ≤ clampNat lo hi n ∧ clampNat lo hi n ≤ hi := by
  unfold clampNat
  split
  · exact ⟨le_rfl, h⟩
  · split <;> omega

/-- A masked number that is held in range stays in range (R180). -/
theorem numOr_mem {lo hi held : Nat} (o : Option Nat) (h : lo ≤ held ∧ held ≤ hi) : lo ≤ numOr lo hi o held ∧ numOr lo hi o held ≤ hi := by
  cases o with
  | none => exact h
  | some n => exact clampNat_mem (h.1.trans h.2) n

/-- SET_FLOOR leaves legal settings (R180). -/
theorem setFloor_apply_legal (p : SetFloorParams) {v : Settings} (h : v.legal) : (p.apply v).legal := by
  obtain ⟨limit, ⟨reserve, -⟩, window, exponent, gate, release, silence, lead, retry, silenceLimit⟩ := h
  have upTo : ∀ {hi held : Nat} (o : Option Nat), held ≤ hi → numOr 0 hi o held ≤ hi := fun o h => (numOr_mem o ⟨Nat.zero_le _, h⟩).2
  exact ⟨numOr_mem _ limit, ⟨(min_le_left _ _).trans (upTo _ reserve), min_le_right _ _⟩, numOr_mem _ window, numOr_mem _ exponent,
    upTo _ gate, upTo _ release, numOr_mem _ silence, upTo _ lead, numOr_mem _ retry, upTo _ silenceLimit⟩

/-! ### Capacities -/

/-- A notice that finds 32 in the queue is lost (R173). -/
theorem State.notify_withinCapacities {s : State} (n : Notice) (h : s.withinCapacities) : (s.notify n).withinCapacities := by
  unfold State.notify
  split
  · split
    · rename_i room
      exact ⟨by simpa [Config.noticeCapacity] using room, h.2⟩
    · exact h
  · exact h

/-- A port's change that keeps within two echoes (R28). -/
theorem State.modTpc_withinCapacities {s : State} (t : Fin 4) (f : Tpc → Tpc)
    (echoes : (f (s.tpc t)).echoes.length ≤ max 2 (s.tpc t).echoes.length) (h : s.withinCapacities) : (s.modTpc t f).withinCapacities := by
  obtain ⟨notices, list, replies, echoed, phases⟩ := h
  refine ⟨notices, list, replies, fun u => ?_, phases⟩
  rw [State.modTpc_tpc]
  split
  · rename_i e
    subst e
    exact echoes.trans (max_le le_rfl (echoed _))
  · exact echoed u

/-- MGE's change that keeps its batch and its phases within bounds (R136, R172). -/
theorem State.modMge_withinCapacities {s : State} (f : Mge → Mge)
    (batch : (f s.mge).batch = s.mge.batch ∨ ∀ n, (f s.mge).batch = some n → n ≤ max 7 (s.mge.batch.getD 0))
    (ds : (f s.mge).decisecondPhase = s.mge.decisecondPhase ∨ (f s.mge).decisecondPhase < 1600)
    (sec : (f s.mge).secondPhase = s.mge.secondPhase ∨ (f s.mge).secondPhase < 10) (h : s.withinCapacities) :
    (s.modMge f).withinCapacities := by
  obtain ⟨notices, list, replies, echoes, batched, dsOk, secOk⟩ := h
  have held : s.mge.batch.getD 0 ≤ 7 := by
    cases q : s.mge.batch with
    | none => exact Nat.zero_le _
    | some n => exact batched n q
  refine ⟨notices, list, replies, echoes, fun n hn => ?_, ds.elim (fun e => e ▸ dsOk) id, sec.elim (fun e => e ▸ secOk) id⟩
  rcases batch with same | bound
  · exact batched n (same ▸ hn)
  · exact (bound n hn).trans (max_le le_rfl held)

/-- Every move keeps the queues, lists and phases within their capacities. -/
theorem Move.withinCapacities {o : Bool} {s t : State} (h : Move o s t) (hs : s.withinCapacities) : t.withinCapacities := by
  have ⟨notices, list, replies, rest⟩ := hs
  cases h
  case notice n => exact State.notify_withinCapacities n hs
  case mge f _ _ batch ds sec => exact State.modMge_withinCapacities f batch ds sec hs
  case hli f sameReplies sameNotices => exact ⟨sameNotices ▸ notices, list, sameReplies ▸ replies, rest⟩
  case queues f fewReplies fewNotices => exact ⟨fewNotices.trans notices, list, fewReplies.trans (max_le le_rfl replies), rest⟩
  case tpc t f echoes => exact State.modTpc_withinCapacities t f echoes hs
  case far f _ _ short => exact ⟨notices, short.trans (max_le le_rfl list), replies, rest⟩
  all_goals exact hs

/-! ### The invariant -/

/-- The ranges and capacities of O57: legal settings, queues, lists and phases within their capacities, at most 8 chair seats. -/
def State.inBounds (s : State) : Prop := s.mge.settings.legal ∧ s.withinCapacities ∧ s.stb.chairCount ≤ 8

theorem Move.inBounds {o : Bool} {s t : State} (h : Move o s t) (hs : s.inBounds) : t.inBounds := by
  obtain ⟨legal, capacities, chairs⟩ := hs
  exact ⟨h.settings_eq ▸ legal, h.withinCapacities capacities, (Stb.chairCount_congr h.sameSeating).trans_le chairs⟩

theorem Moves.inBounds {o : Bool} {s t : State} (h : Moves o s t) (hs : s.inBounds) : t.inBounds := h.keeps Move.inBounds hs

theorem Settings.reset_legal : Settings.reset.legal := by simp [Settings.legal, Settings.reset]

/-- The Seat Table at reset has no chair seat: every seat is of class 0, a delegate class (R2, R7, R9). -/
theorem Stb.reset_chairCount : Stb.reset.chairCount = 0 := by
  simp only [Stb.chairCount, Stb.reset, Vector.toList_replicate, List.countP_replicate]
  decide

theorem State.resetBy_withinCapacities (cause : ResetCause) (holdMs : Nat) : (State.resetBy cause holdMs).withinCapacities := by
  refine ⟨Nat.zero_le _, Nat.zero_le _, Nat.zero_le _, fun t => ?_, fun n h => (nomatch h), Nat.zero_lt_succ _, Nat.zero_lt_succ _⟩
  simp [State.tpc, State.resetBy, Tpc.reset]

theorem State.resetKeepingQueue_inBounds (s : State) (cause : ResetCause) (holdMs : Nat) : (s.resetKeepingQueue cause holdMs).inBounds :=
  ⟨Settings.reset_legal, State.resetBy_withinCapacities cause holdMs, Stb.reset_chairCount.trans_le (Nat.zero_le _)⟩

/-- Zeroing the counts of a sitting changes no seat's class (R184). -/
theorem State.zeroCounts_sameSeating (s : State) : s.zeroCounts.stb.sameSeating s.stb := by
  refine ⟨fun i => ?_, rfl, fun _ => ⟨rfl, rfl, rfl⟩⟩
  simp [State.zeroCounts, State.setStb]

/-- RESET_ENGINE empties the notice queue and the list, ends the batch and keeps the echoes (R192). -/
theorem State.engineReset_inBounds {s : State} (h : s.inBounds) : s.engineReset.inBounds := by
  obtain ⟨legal, ⟨-, -, replies, echoes, -, phases⟩, chairs⟩ := h
  refine ⟨legal, ⟨Nat.zero_le _, Nat.zero_le _, replies, fun t => ?_, fun n h => (nomatch h), phases⟩, chairs⟩
  have same : (s.engineReset.tpc t).echoes = (s.tpc t).echoes := by simp [State.tpc, State.engineReset, Tpc.engineReset]
  exact same ▸ echoes t

/-- Every command's change keeps the ranges and capacities. -/
theorem Change.inBounds {s t : State} (h : Change s t) (hs : s.inBounds) : t.inBounds := by
  have ⟨legal, capacities, chairs⟩ := hs
  cases h with
  | path moves => exact moves.inBounds hs
  | reset cause holdMs => exact s.resetKeepingQueue_inBounds cause holdMs
  | holdEnd _ => exact hs
  | seating stb _ few moves => exact moves.inBounds ⟨legal, capacities, few.trans (max_le le_rfl chairs)⟩
  | settings p moves => exact moves.inBounds ⟨setFloor_apply_legal p legal, capacities, chairs⟩
  | opened _ moves =>
    exact moves.inBounds ⟨legal, capacities, (Stb.chairCount_congr s.zeroCounts_sameSeating).trans_le chairs⟩
  | closed before after => exact after.inBounds (before.inBounds hs)
  | engine before => exact State.engineReset_inBounds (before.inBounds hs)

end Sys2Proof.Machine

namespace Sys2Proof.Proofs

open Sys2Proof.Machine

/-- Settles O57: a step is a `Change` of the state with the command taken from its queue, and every `Change` keeps the bounds. -/
theorem stepKeepsRangesAndCapacities : Obligations.StepKeepsRangesAndCapacities := by
  unfold Obligations.StepKeepsRangesAndCapacities
  intro s t legal capacities chairs hstep
  obtain ⟨u, hu, change⟩ := step_change s
  obtain rfl : u = t := Host.Outcome.next.inj (hu.symm.trans hstep)
  exact change.inBounds (s := { s with pending := s.pending.tail }) ⟨legal, capacities, chairs⟩

/-- Settles O56. -/
theorem resetMeetsInvariants : Obligations.ResetMeetsInvariants := by
  unfold Obligations.ResetMeetsInvariants
  have free : ∀ c, State.reset.chan c = Channel.reset := fun c => by simp [State.chan, State.reset, State.resetBy, Far.reset]
  refine ⟨Settings.reset_legal, State.resetBy_withinCapacities _ _, ⟨List.nodup_nil, fun c => ?_⟩, ⟨fun c _ => ?_, fun c busy => ?_, fun c d _ busy => ?_⟩,
    Stb.reset_chairCount⟩
  · rw [free]
    simp [Channel.reset, State.reset, State.resetBy, Far.reset]
  · simp [free, Channel.reset]
  all_goals exact absurd (by rw [free]; rfl) busy

/-- Settles O5: a table filled with its reset entry has that entry everywhere; the rest is read off. -/
theorem powerOnResetLeavesResetColumns : Obligations.PowerOnResetLeavesResetColumns := by
  unfold Obligations.PowerOnResetLeavesResetColumns
  have port : ∀ t, State.reset.tpc t = Tpc.reset := fun t => vget_replicate ..
  have fmx : ∀ c, State.reset.fmxOf c = FmxChan.reset := fun c => vget_replicate ..
  refine ⟨⟨rfl, rfl⟩, fun x => vget_replicate .., fun n => ?_, fun z => vget_replicate .., fun t => ?_, fun c => vget_replicate .., ?_,
    fun c => vget_replicate .., fun c => ?_, ⟨rfl, rfl, rfl, rfl⟩, rfl, rfl, ?_⟩
  · fin_cases n <;> rfl
  · rw [port]
    simp [Tpc.reset]
  · simp [State.reset, State.resetBy, Far.reset]
  · rw [fmx]
    simp [FmxChan.reset]
  · simp [State.reset, State.resetBy, Mge.reset]

end Sys2Proof.Proofs
end

section
/-! PROOF. The reading records (O44): each answers from the state as it stands, and what it names is checked first. -/

namespace Sys2Proof.Machine

/-! ### Seat codes (R1) -/

/-- A seat's code names the seat. -/
theorem seatOfCode_seatCode (x : Seat) : seatOfCode (seatCode x) = some x := by
  obtain ⟨⟨t, ht⟩, ⟨p, hp⟩⟩ := x
  have trunk : (t * 128 + (p + 1)) / 128 = t := by omega
  have position : (t * 128 + (p + 1)) % 128 = p + 1 := by omega
  simp only [seatOfCode, seatCode, posNumber, trunk, position]
  rw [dif_pos ⟨ht, by omega⟩]
  simp

theorem seatCode_le (x : Seat) : seatCode x ≤ maxSeatCode := by
  obtain ⟨⟨t, ht⟩, ⟨p, hp⟩⟩ := x
  simp only [seatCode, posNumber, maxSeatCode]
  omega

/-- A record that names a seat runs on it. -/
theorem onSeat_seatCode (x : Seat) (body : Seat → State → Answer) (s : State) :
    onSeat (BitVec.ofNat 16 (seatCode x)) body s = body x s := by
  have le := seatCode_le x
  have value : (BitVec.ofNat 16 (seatCode x)).toNat = seatCode x := by
    rw [BitVec.toNat_ofNat]
    exact Nat.mod_eq_of_lt (by simp only [maxSeatCode] at le; omega)
  simp only [onSeat, seatOrRefusal, value, seatOfCode_seatCode, if_neg (not_lt.mpr le)]

/-- A code beyond 504 is refused with BAD_FIELD. -/
theorem onSeat_badField {code : BitVec 16} (h : 504 < code.toNat) (body : Seat → State → Answer) (s : State) :
    onSeat code body s = Answer.refuse .badField s := by
  simp [onSeat, seatOrRefusal, maxSeatCode, h]

/-- A code that is 0 or whose position is invalid is refused with NO_SEAT. -/
theorem onSeat_noSeat {code : BitVec 16} (range : code.toNat ≤ 504) (h : code.toNat % 128 = 0 ∨ 120 < code.toNat % 128)
    (body : Seat → State → Answer) (s : State) : onSeat code body s = Answer.refuse .noSeat s := by
  have none : seatOfCode code.toNat = none := by
    unfold seatOfCode
    split
    · split <;> [rfl; omega]
    · rfl
  simp only [onSeat, seatOrRefusal, maxSeatCode, if_neg (not_lt.mpr range), none]

/-! ### Numbered objects -/

/-- A number below `n` read back from its byte. -/
theorem finOfByte_ofNat {n : Nat} (hn : n ≤ 256) (i : Fin n) : finOfByte n (BitVec.ofNat 8 i) = some i := by
  have value : (BitVec.ofNat 8 i.val).toNat = i.val := by
    rw [BitVec.toNat_ofNat]
    exact Nat.mod_eq_of_lt (i.isLt.trans_le hn)
  simp [finOfByte, value]

theorem finOfByte_none {n : Nat} {b : Byte} (h : n ≤ b.toNat) : finOfByte n b = none := dif_neg (not_lt.mpr h)

/-- A byte with the number of `i` names it. -/
theorem finOfByte_some {n : Nat} {b : Byte} {i : Fin n} (h : b.toNat = i.val) : finOfByte n b = some i := by
  simp [finOfByte, h]

/-! ### Answers -/

/-- A record whose turn it is answers what its body answers. -/
theorem State.runRecord_answer {s u : State} {i : Instr} (h : s.takes i) (kind : Byte) {body : State → Answer} {status : Status}
    {fields : List Byte} (answer : body s = ⟨u, status, fields⟩) : s.runRecord i kind body = s.afterRecord u kind status fields := by
  rw [State.runRecord_eq h, answer]

/-- A record refused leaves the state as it is. -/
theorem State.runRecord_refuse {s : State} {i : Instr} (h : s.takes i) (kind : Byte) {body : State → Answer} {status : Status}
    (refused : body s = Answer.refuse status s) : s.runRecord i kind body = s.afterRecord s kind status [] :=
  State.runRecord_answer h kind refused

/-- The records that name one seat run on the seat of their code. -/
theorem exec_onSeat {code : BitVec 16} {a : Byte} {i : Instr} {kind : Byte}
    (h : (i, kind) = (.readSeat code, 0x02) ∨ (i, kind) = (.close code, 0x20) ∨ (i, kind) = (.insertRequest code a, 0x23)
      ∨ (i, kind) = (.cancelRequest code, 0x24) ∨ (i, kind) = (.grant code, 0x28)) (s : State) :
    ∃ body, exec i s = .next (s.runRecord i kind (onSeat code body)) := by
  rcases h with h | h | h | h | h <;> obtain ⟨rfl, rfl⟩ := Prod.mk.inj h <;> exact ⟨_, rfl⟩

/-- A class above 7, a zone above 8, a trunk above 3, a first index above 63 and a count of 0 are refused with BAD_FIELD. -/
theorem exec_read_badField {a b : Byte} {i : Instr} {kind : Byte}
    (h : (i, kind) = (.readClass a, 0x04) ∧ 7 < a.toNat ∨ (i, kind) = (.readZone a, 0x06) ∧ 8 < a.toNat
      ∨ (i, kind) = (.readTrunk a, 0x14) ∧ 3 < a.toNat ∨ (i, kind) = (.readList a b, 0x26) ∧ (63 < a.toNat ∨ b = 0)) (s : State) :
    ∃ body, exec i s = .next (s.runRecord i kind body) ∧ body s = Answer.refuse .badField s := by
  rcases h with ⟨h, bad⟩ | ⟨h, bad⟩ | ⟨h, bad⟩ | ⟨h, bad⟩ <;> obtain ⟨rfl, rfl⟩ := Prod.mk.inj h <;> refine ⟨_, rfl, ?_⟩
  · simp [readClassBody, finOfByte_none (n := 8) bad]
  · have other : a ≠ 8 := by rintro rfl; exact absurd bad (by decide)
    simp only [readZoneBody, finOfByte_none (n := 8) bad.le, if_neg other]
  · simp [onTrunk, finOfByte_none (n := 4) bad]
  · exact if_pos bad

theorem readClassBody_ofNat (n : Fin 8) (s : State) : readClassBody (BitVec.ofNat 8 n) s
    = ⟨s, .ok, (vget s.stb.classes n).fields ++ u16 (s.stb.memberCount n)⟩ := by
  simp [readClassBody, finOfByte_ofNat (n := 8) (by decide) n]

theorem readZoneBody_ofNat (n : Fin 8) (s : State) : readZoneBody (BitVec.ofNat 8 n) s
    = ⟨s, .ok, (vget s.stb.zones n).fields ++ s.zoneCounts (some n)⟩ := by
  simp [readZoneBody, finOfByte_ofNat (n := 8) (by decide) n]

theorem readTrunkBody_ofNat (t : Fin 4) (s : State) : onTrunk (BitVec.ofNat 8 t) readTrunkBody s = ⟨s, .ok, s.trunkFields t⟩ := by
  simp [onTrunk, finOfByte_ofNat (n := 4) (by decide) t, readTrunkBody]

end Sys2Proof.Machine

namespace Sys2Proof.Proofs

open Sys2Proof.Machine

/-- Settles O44: each reading body answers from the state, and the checks refuse before any body runs. -/
theorem readingRecordsChangeNothing : Obligations.ReadingRecordsChangeNothing := by
  unfold Obligations.ReadingRecordsChangeNothing
  refine ⟨fun x s h => ?_, fun n s h => ?_, fun n s h => ?_, fun s h => ?_, fun t s h => ?_, fun s h => ?_, fun first count s h first_le some_count => ?_,
    fun s h => ?_, fun s h => ?_, fun code a b i kind s h => ⟨fun named => ⟨fun beyond => ?_, fun range invalid => ?_⟩, fun bad => ?_⟩⟩
  · exact congrArg _ (State.runRecord_answer h 0x02 (onSeat_seatCode x _ s))
  · exact congrArg _ (State.runRecord_answer h 0x04 (readClassBody_ofNat n s))
  · exact congrArg _ (State.runRecord_answer h 0x06 (readZoneBody_ofNat n s))
  · exact congrArg _ (State.runRecord_answer h 0x06 rfl)
  · exact congrArg _ (State.runRecord_answer h 0x14 (readTrunkBody_ofNat t s))
  · exact congrArg _ (State.runRecord_answer h 0x22 rfl)
  · refine congrArg _ (State.runRecord_answer h 0x26 ?_)
    rw [readListBody, if_neg (not_or.mpr ⟨not_lt.mpr first_le, some_count⟩)]
    simp [clampStatus, State.chairEntries]
  · exact congrArg _ (State.runRecord_answer h 0x38 rfl)
  · exact congrArg _ (State.runRecord_answer h 0x54 rfl)
  · obtain ⟨body, run⟩ := exec_onSeat named s
    rw [run, State.runRecord_refuse h kind (onSeat_badField beyond body s)]
  · obtain ⟨body, run⟩ := exec_onSeat named s
    rw [run, State.runRecord_refuse h kind (onSeat_noSeat range invalid body s)]
  · obtain ⟨body, run, refused⟩ := exec_read_badField bad s
    rw [run, State.runRecord_refuse h kind refused]

end Sys2Proof.Proofs
end

section
/-! PROOF. Rules the proofs about lost, barred and restarted seats share: queuing a notice past other updates, what clearing a seat's place on the
floor comes to by its floor state, the end of a close, and the rise or fall of the hold level. -/

namespace Sys2Proof.Machine

/-! ### Queuing a notice past other updates (R173) -/

/-- Queuing a notice leaves the trunks alone, whichever they are. -/
theorem State.notify_setTrunks (s : State) (n : Notice) (trunks : Vector Tpc 4) :
    { s.notify n with trunks := trunks } = State.notify n { s with trunks := trunks } := by
  unfold State.notify
  simp only [apply_ite (fun a : State => { a with trunks := trunks })]
  rfl

/-- Queuing a notice leaves the floor arbiter alone, whichever it is. -/
theorem State.notify_setFar (s : State) (n : Notice) (far : Far) : { s.notify n with far := far } = State.notify n { s with far := far } := by
  unfold State.notify
  simp only [apply_ite (fun a : State => { a with far := far })]
  rfl

theorem State.notify_seatRec (s : State) (n : Notice) (x : Seat) : (s.notify n).seatRec x = s.seatRec x := by
  simp only [State.seatRec, State.notify_stb]

theorem State.notify_tpc (s : State) (n : Notice) (t : Fin 4) : (s.notify n).tpc t = s.tpc t := by
  simp only [State.tpc, State.notify_trunks]

theorem State.notify_modSeat (s : State) (n : Notice) (x : Seat) (f : SeatRec → SeatRec) :
    (s.notify n).modSeat x f = (s.modSeat x f).notify n := by
  simp only [State.modSeat, State.notify_seatRec, State.notify_stb, State.notify_setStb]

theorem State.notify_modTpc (s : State) (n : Notice) (t : Fin 4) (f : Tpc → Tpc) : (s.notify n).modTpc t f = (s.modTpc t f).notify n := by
  simp only [State.modTpc, State.notify_tpc, State.notify_trunks, State.notify_setTrunks]

theorem State.notify_trigger (s : State) (n : Notice) : (s.notify n).trigger = s.trigger.notify n := by
  simp only [State.trigger, State.modFar, State.notify_far, State.notify_setFar]

/-- Two flags may be set in either order (R186). -/
theorem flagsSet_comm (f g : Flag) (w : BitVec 14) : flagsSet f (flagsSet g w) = flagsSet g (flagsSet f w) := by
  simp only [flagsSet, BitVec.or_assoc]
  rw [BitVec.or_comm (1#14 <<< g.bit)]

theorem State.notify_setFlag (s : State) (n : Notice) (g : Flag) : (s.notify n).setFlag g = (s.setFlag g).notify n := by
  unfold State.notify
  simp only [State.setFlag_hli, apply_ite (State.setFlag g)]
  refine ite_congr rfl (fun _ => ite_congr rfl (fun _ => rfl) fun _ => ?_) fun _ => rfl
  simp only [State.setFlag, State.modMge, flagsSet_comm g]

/-- What queues only notices keeps the flags that are set (R186). -/
theorem State.notices_hasFlag {s : State} {g : Flag} (ns : List Notice) (h : flagsHas g s.mge.flags = true) :
    flagsHas g (s.notices ns).mge.flags = true := by
  induction ns generalizing s with
  | nil => exact h
  | cons n ns ih =>
    rw [State.notices_cons]
    refine ih ?_
    unfold State.notify
    split
    · split
      · exact h
      · exact flagsHas_mono h
    · exact h

/-- A flag set before a handling that queues only notices is set after it. -/
theorem State.onlyNotices_hasFlag {s u : State} {g : Flag} {ns : List Notice} (h : (s.setFlag g).onlyNotices ns u) :
    flagsHas g u.mge.flags = true := by
  obtain ⟨-, -, -, -, -, -, -, -, mge⟩ := h
  rw [mge]
  exact State.notices_hasFlag ns (flagsHas_set g s.mge.flags)

/-! ### A seat's place on the floor (R20) -/

theorem State.chanOf_seat {s : State} {x : Seat} {c : Fin 12} (h : s.chanOf x = some c) : (s.chan c).seat = some x := by
  have found := List.find?_some h
  simp only [decide_eq_true_eq] at found
  exact found.2

/-- A seat WAITING has a WAITING entry. -/
theorem State.entry_of_waiting {s : State} {x : Seat} (h : s.floorState x = .waiting) : ∃ e, s.entryOf x = some e ∧ e.state = .waiting := by
  unfold State.floorState at h
  cases entry : s.entryOf x with
  | some e =>
    cases state : e.state with
    | waiting => exact ⟨e, rfl, state⟩
    | offered => simp [entry, state] at h
  | none =>
    cases chan : s.chanOf x with
    | some c => cases state : (s.chan c).state <;> simp [entry, chan, state] at h
    | none => cases successor : (s.successorChan x).isSome <;> simp [entry, chan, successor] at h

/-- A seat with an OFFERED entry is OFFERED. -/
theorem State.floorState_of_offered {s : State} {x : Seat} {e : Entry} (entry : s.entryOf x = some e) (offered : e.state = .offered) :
    s.floorState x = .offered := by
  simp [State.floorState, entry, offered]

/-- The channel of a seat past its offer is in the state the seat's floor state names. -/
theorem State.chanState_of_floorState {s : State} {x : Seat} {c : Fin 12} (chan : s.chanOf x = some c) :
    (s.floorState x = .opening → (s.chan c).state = .opening) ∧ (s.floorState x = .opened → (s.chan c).state = .opened)
      ∧ (s.floorState x = .held → (s.chan c).state = .held) ∧ (s.floorState x = .closing → (s.chan c).state = .closing) := by
  unfold State.floorState
  cases entry : s.entryOf x with
  | some e => cases state : e.state <;> simp [state]
  | none => cases state : (s.chan c).state <;> simp [chan, state]

/-- The channel of a seat OPENING, OPEN or HELD is OPEN, or OPENING, exactly where the seat is. -/
theorem State.chanState_iff_floorState {s : State} {x : Seat} {c : Fin 12} (chan : s.chanOf x = some c)
    (h : s.floorState x = .opening ∨ s.floorState x = .opened ∨ s.floorState x = .held) :
    ((s.chan c).state = .opened ↔ s.floorState x = .opened) ∧ ((s.chan c).state = .opening ↔ s.floorState x = .opening) := by
  obtain ⟨opening, opened, held, -⟩ := State.chanState_of_floorState chan
  rcases h with h | h | h
  · simp [opening h, h]
  · simp [opened h, h]
  · simp [held h, h]

/-! ### Removing an entry (R78) -/

/-- A WAITING entry removed by the seat or by the loss of it leaves the list with notice LIST_REMOVE, and nothing is placed. -/
theorem State.listRemove_waiting {s : State} {x : Seat} {i : Nat} (waiting : s.floorState x = .waiting) (index : s.listIndex x = some i)
    {cause : RemovalCause} (quiet : ¬(cause = .cancelled ∨ cause = .cleared ∨ cause = .sitting)) : s.listRemove x cause
      = State.notify (.listRemove x cause i (s.far.list.length - 1)) { s with far := { s.far with list := s.far.list.eraseIdx i } } := by
  obtain ⟨e, entry, -⟩ := State.entry_of_waiting waiting
  have inside : i < s.far.list.length := (List.findIdx?_eq_some_iff_getElem.mp index).1
  unfold State.listRemove
  simp only [entry, index, quiet, and_false, if_false, State.modFar_far, List.length_eraseIdx_of_lt inside]
  rfl

/-! ### Closing and freeing by channel state (R60, R63, R64) -/

/-- A placement before a channel is freed only changes the trunks. -/
theorem State.freed_of_place {s u : State} {c : Fin 12} {x : Seat} {cmd : Cmd} {list : List Entry} {ns : List Notice}
    (h : (s.place x cmd).freed c list (s.place x cmd).trunks ns u) : s.freed c list (s.place x cmd).trunks ns u := by
  obtain ⟨cleared, others, far, trunks, stb, slm, fmx, notices⟩ := h
  simp only [State.place_chan, State.place_far, State.place_stb, State.place_slm, State.place_fmx] at others far stb slm fmx
  exact ⟨cleared, others, far, trunks, stb, slm, fmx, State.onlyNotices_after (s.onlyNotices_place x cmd) notices⟩

/-- A close request on an OPENING channel whose OPEN is unsent frees it (R60, R64 row 1). -/
theorem State.freed_of_openUnsent {s : State} {c : Fin 12} {x : Seat} (cause : CloseCause) (state : (s.chan c).state = .opening)
    (seat : (s.chan c).seat = some x) (unsent : s.openUnsent x = true) :
    s.freed c s.far.list (s.place x .close).trunks [.chClose c x cause 0] (s.closeRequest c cause) := by
  have request : s.closeRequest c cause = (s.place x .close).freeChannel c cause := by simp [State.closeRequest, state, seat, unsent]
  have freed := State.freed_of_opening (s := s.place x .close) (c := c) (x := x) cause (by simpa using state) (by simpa using seat)
  rw [State.place_far] at freed
  rw [request]
  exact State.freed_of_place freed

/-- A close request on an OPENING channel whose OPEN is sent (R60). -/
theorem State.closingOf_opening {s : State} {c : Fin 12} {x : Seat} (cause : CloseCause) (state : (s.chan c).state = .opening)
    (seat : (s.chan c).seat = some x) (sent : s.openUnsent x = false) : s.closingOf c x cause (s.closeRequest c cause) := by
  have request : s.closeRequest c cause = s.enterClosing c cause := by simp [State.closeRequest, state, seat, sent]
  rw [request, s.enterClosing_spec c cause seat]
  refine ⟨?_, fun d other => ?_, rfl, rfl, rfl, ?_, ?_, State.onlyNotices_of rfl rfl rfl rfl rfl rfl rfl rfl rfl⟩
  · simp [State.chan, State.modChan]
  · simp [State.chan, State.modChan, other.symm]
  · simp [state]
  · simp [state]

/-- A close request on the channel of a seat OPENING with its OPEN sent, OPEN or HELD brings it to CLOSING (R60). -/
theorem State.closingOf_floorState {s : State} {c : Fin 12} {x : Seat} (cause : CloseCause) (chan : s.chanOf x = some c)
    (h : (s.floorState x = .opening ∧ s.openUnsent x = false) ∨ s.floorState x = .opened ∨ s.floorState x = .held) :
    s.closingOf c x cause (s.closeRequest c cause) := by
  have seat := State.chanOf_seat chan
  obtain ⟨opening, opened, held, -⟩ := State.chanState_of_floorState chan
  rcases h with ⟨state, sent⟩ | state | state
  · exact State.closingOf_opening cause (opening state) seat sent
  · exact State.closingOf_opened cause (opened state) seat
  · exact State.closingOf_held cause (held state) seat

/-! ### The end of a close (R62) -/

/-- An OPEN placed replaces an unsent command exactly where that is CLOSE (R32, R64 row 8). -/
theorem enqueue_open_replaced (pos : Fin 120) (k : Fin 6) (muted : Bool) (q : List QEntry) :
    (enqueue pos (.openMic k muted) q).2 = .closeReplaced ↔ (q.find? fun e => e.target = some pos).map QEntry.cmd = some .close := by
  induction q with
  | nil => simp [enqueue]
  | cons e q ih =>
    by_cases here : e.target = some pos
    · obtain ⟨target, cmd⟩ := e
      simp only [enqueue]
      cases cmd <;> simp_all [coalesce, Cmd.isIndication, Cmd.isFloor]
    · simpa [enqueue, here] using ih

/-- An OPEN placed for a seat whose CLOSE is not unsent ends no close. -/
theorem State.placeReport_open_kept {s : State} {x : Seat} (h : s.unsent x ≠ some .close) (k : Fin 6) (muted : Bool) :
    (s.placeReport x (.openMic k muted)).2 ≠ .closeReplaced := by
  unfold State.placeReport
  split
  · exact fun replaced => h ((enqueue_open_replaced x.pos k muted _).mp replaced)
  · exact fun replaced => nomatch replaced

/-- Without a successor still valid the channel is freed. -/
theorem State.endClose_freed {s : State} {c : Fin 12}
    (h : (s.chan c).successor = none ∨ ∃ y, (s.chan c).successor = some y ∧ s.successorValid c y = false) :
    s.endClose c = s.freeChannel c .released := by
  rcases h with none | ⟨y, successor, invalid⟩
  · simp [State.endClose, State.endCloseN, none]
  · simp [State.endClose, State.endCloseN, successor, invalid]

theorem State.handover_trunks (s : State) (c : Fin 12) (y : Seat) : (s.handover c y).trunks = s.trunks :=
  State.notifyChan_trunks ..

theorem State.handover_stb (s : State) (c : Fin 12) (y : Seat) : (s.handover c y).stb = s.stb :=
  State.notifyChan_stb ..

theorem State.handover_unsent (s : State) (c : Fin 12) (y z : Seat) : (s.handover c y).unsent z = s.unsent z := by
  simp only [State.unsent, State.tpc, State.handover_trunks]

theorem State.handover_far (s : State) (c : Fin 12) (y : Seat) :
    (s.handover c y).far = (s.modChan c fun _ => s.openingEntry y (s.handoverSlot c y) .succession).far := by
  simp [State.handover, State.modChan]

/-- Handed to a valid successor whose CLOSE is not unsent, the channel is OPENING for it and its OPEN is placed. -/
theorem State.endClose_handed {s : State} {c : Fin 12} {y : Seat} (successor : (s.chan c).successor = some y)
    (valid : s.successorValid c y = true) (unsent : s.unsent y ≠ some .close) : s.endClose c
      = (s.handover c y).place y (s.openingEntry y (s.handoverSlot c y) .succession).openCmd := by
  have entry : (s.handover c y).chan c = s.openingEntry y (s.handoverSlot c y) .succession := by
    simp only [State.chan, State.handover_far]
    exact s.modChan_chan_self c _
  have kept := State.placeReport_open_kept (s := s.handover c y) (x := y) (by rwa [State.handover_unsent])
    ((s.openingEntry y (s.handoverSlot c y) .succession).slot.getD 0)
    ((s.openingEntry y (s.handoverSlot c y) .succession).mutedAtOpen.getD false)
  simp only [State.endClose, State.endCloseN, successor, valid, if_true, entry, State.place]
  exact if_neg kept

/-- What a handover and the OPEN placed after it come to (R62). -/
theorem State.handover_spec {s : State} {c : Fin 12} {x : Seat} (state : (s.chan c).state = .closing) (seat : (s.chan c).seat = some x) (y : Seat) :
    (s.handover c y).slm = vset s.slm c SlmChan.reset
      ∧ (s.handover c y).fmx = { s.fmx with chans := vset s.fmx.chans c { s.fmxOf c with latest := 0, fresh := false } }
      ∧ s.onlyNotices [.chClose c x ((s.chan c).closeCause.getD .released) (s.slmOf c).clock] (s.handover c y) := by
  have told := State.onlyNotices_notifyClose (s := s) (a := s) c (s.freeCause c .released) rfl rfl
  simp only [seat, State.freeCause, State.closingClock, state, if_true, Option.map_some, Option.toList_some] at told
  refine ⟨?_, ?_, ?_⟩
  · simp [State.handover, State.setUpAudio, State.modSlm, State.notifyClose, State.modChan, State.modFmx]
  · simp [State.handover, State.setUpAudio, State.modSlm, State.notifyClose, State.modChan, State.modFmx, State.fmxOf]
  · simp only [State.handover, State.freeCause, state, if_true]
    exact State.onlyNotices_then told (State.onlyNotices_of rfl rfl rfl rfl rfl rfl rfl rfl rfl)

/-- The end of a close does what the statements say it does (R62). -/
theorem State.endClose_closeEndOf {s : State} {c : Fin 12} {x : Seat} (state : (s.chan c).state = .closing)
    (seat : (s.chan c).seat = some x) : s.closeEndOf c x (s.endClose c) := by
  refine ⟨fun noSuccessor => ?_, fun y k successor valid unsent slot => ?_⟩
  · rw [State.endClose_freed noSuccessor]
    exact State.freed_of_closing .released state seat
  · have slot' : s.handoverSlot c y = some k := slot
    have muted : s.mutedFlag (s.kindOf y) (s.levelOf y) = decide (s.kindOf y = .delegate ∧ s.levelOf y < s.far.holdLevel) := by
      simp [State.mutedFlag]
    obtain ⟨slm, fmx, notices⟩ := State.handover_spec state seat y
    have far := s.handover_far c y
    rw [State.endClose_handed successor valid unsent]
    simp only [slot'] at far ⊢
    refine ⟨?_, fun d other => ?_, ?_, ?_, ?_, ?_, ?_, ?_⟩
    · rw [State.place_chan, State.chan, far, ← muted]
      exact s.modChan_chan_self c _
    · rw [State.place_chan, State.chan, far]
      exact s.modChan_chan_other c d _ other.symm
    · rw [State.place_far, far]
      rfl
    · rw [State.place_stb, State.handover_stb]
    · rw [State.place_slm, slm]
    · rw [State.place_fmx, fmx]
    · rw [← muted]
      exact State.place_trunks_congr _ (s.handover_trunks c y) (by simp only [State.seatRec, State.handover_stb])
    · exact State.onlyNotices_then notices (State.onlyNotices_place _ _ _)

/-! ### Leaving the hold set and list control (R120, R128) -/

theorem State.memberLeft_of_not_mem {s : State} {x : Seat} (h : x ∉ s.far.holdSet) : s.memberLeft x = s := if_neg h

theorem State.holderLeft_of_ne {s : State} {x : Seat} (h : s.far.holder ≠ some x) : s.holderLeft x = s := if_neg h

/-! ### The rise or fall of the hold level (R119, R121) -/

theorem State.holdChanged_same {s : State} {before : Fin 8} (h : s.far.holdLevel = before) : s.holdChanged before = s := by
  simp [State.holdChanged, h]

theorem State.holdChanged_fall {s : State} {before : Fin 8} (h : s.far.holdLevel < before) : s.holdChanged before = s.fallen := by
  rw [State.holdChanged, if_neg (lt_asymm h), if_pos h, State.fall_eq]

theorem State.holdChanged_rise {s : State} {before : Fin 8} (h : before < s.far.holdLevel) : s.holdChanged before = s.rise := if_pos h

/-- A fall passes over a channel that is not HELD (R121). -/
theorem State.unmutedAt_of_not_held {s : State} {c : Fin 12} (h : (s.chan c).state ≠ .held) : s.unmutedAt c = s := by
  unfold State.unmutedAt
  split
  · rename_i held _
    exact absurd held h
  · rfl

/-- A fall meets a channel without changing another. -/
theorem State.unmutedAt_chan_other {s : State} {c d : Fin 12} (h : d ≠ c) : (s.unmutedAt c).chan d = s.chan d := by
  rw [← State.fallAt_eq, State.fallAt]
  split
  · split
    · rfl
    · rename_i y _ seat _
      unfold State.placeUnmute
      dsimp only
      split
      · rw [State.resume_eq (x := y) (by rw [State.placeReport_chan]; exact seat), State.notify_chan]
        simp [State.chan, h.symm]
      · exact State.placeReport_chan ..
  · rfl

/-- A fall over channels of which none is HELD changes nothing. -/
theorem State.unmutedOver_of_none_held {s : State} (l : List (Fin 12)) (h : ∀ d ∈ l, (s.chan d).state ≠ .held) :
    l.foldl State.unmutedAt s = s := by
  induction l with
  | nil => rfl
  | cons d l ih =>
    rw [List.foldl_cons, State.unmutedAt_of_not_held (h d (by simp))]
    exact ih fun e he => h e (by simp [he])

/-- A fall with no HELD channel only owes a promotion (R121). -/
theorem State.fallen_of_none_held {s : State} (h : ∀ c, (s.chan c).state ≠ .held) : s.fallen = s.trigger := by
  simp only [State.fallen, State.unmutedOver_of_none_held allChans fun d _ => h d]
  rfl

/-- A fall with a single HELD channel meets that one alone (R121). -/
theorem State.fallen_of_one_held {s : State} {c : Fin 12} (only : ∀ d, (s.chan d).state = .held ↔ d = c) :
    s.fallen = (s.unmutedAt c).trigger := by
  have all : c ∈ allChans := by fin_cases c <;> decide
  have once : allChans.Nodup := by decide
  obtain ⟨before, after, split⟩ := List.append_of_mem all
  rw [split, List.nodup_append, List.nodup_cons] at once
  obtain ⟨-, ⟨notAfter, -⟩, apart⟩ := once
  have first : before.foldl State.unmutedAt s = s := State.unmutedOver_of_none_held before fun d hd held =>
    apart d hd c (by simp) ((only d).mp held)
  have last : after.foldl State.unmutedAt (s.unmutedAt c) = s.unmutedAt c := State.unmutedOver_of_none_held after fun d hd held => by
    have other : d ≠ c := fun e => notAfter (e ▸ hd)
    rw [State.unmutedAt_chan_other other] at held
    exact other ((only d).mp held)
  simp only [State.fallen, split, List.foldl_append, List.foldl_cons, first, last]
  rfl

/-- A placement does not wait for the promotion owed. -/
theorem State.place_trigger (s : State) (x : Seat) (cmd : Cmd) : (s.place x cmd).trigger = s.trigger.place x cmd := by
  have trunks : (s.trigger.place x cmd).trunks = (s.place x cmd).trunks := State.place_trunks_congr cmd rfl rfl
  rw [s.trigger.place_eq, trunks, s.place_eq]
  rfl

/-- A HELD channel that stays below the level is passed over (R121). -/
theorem State.unmutedAt_of_below {s : State} {c : Fin 12} (below : s.belowHold c = true) : s.unmutedAt c = s := by
  unfold State.unmutedAt
  split
  · exact if_pos (.inl below)
  · rfl

/-- A HELD channel no longer below the level, its seat's queue empty and no UNMUTE on its way, gets UNMUTE (R121). -/
theorem State.unmutedAt_of_not_below {s : State} {c : Fin 12} {y : Seat} (held : (s.chan c).state = .held) (seat : (s.chan c).seat = some y)
    (below : s.belowHold c = false) (unsent : s.unsent y = none) (flight : s.inFlightFor y ≠ some .unmute) :
    s.unmutedAt c = s.place y .unmute := by
  simp [State.unmutedAt, held, seat, below, unsent, flight]

/-- Whether a delegate's channel is below the hold level is read off its copied level (R55). -/
theorem State.belowHold_of_level {s : State} {c : Fin 12} {l : Fin 8} (level : (s.chan c).level = some l) :
    s.belowHold c = (decide ((s.chan c).kind = some .delegate) && decide (l < s.far.holdLevel)) := by
  simp [State.belowHold, level]

/-- A changed hold level meets the floor as the statements say it (R117, R119, R121). -/
theorem State.holdChanged_levelMet (s : State) (before : Fin 8) : s.levelMet before (s.holdChanged before) := by
  refine ⟨State.holdChanged_same, State.holdChanged_fall, fun fell none => ?_, fun c y l fell only seat level => ⟨fun low delegate => ?_,
    fun high unsent flight => ?_⟩, fun rose => ?_⟩
  · rw [State.holdChanged_fall fell, State.fallen_of_none_held none]
    rfl
  · rw [State.holdChanged_fall fell, State.fallen_of_one_held only, State.unmutedAt_of_below]
    · rfl
    · simp [State.belowHold_of_level level, delegate, low]
  · rw [State.holdChanged_fall fell, State.fallen_of_one_held only,
      State.unmutedAt_of_not_below ((only c).mpr rfl) seat _ unsent flight, State.place_trigger]
    · rfl
    · simp [State.belowHold_of_level level, not_lt.mpr high]
  · rw [State.holdChanged_rise rose]
    exact ⟨s.rise_risen, fun c l => State.risen_noneOpen s.rise_risen c l⟩

end Sys2Proof.Machine
end

section
/-! PROOF. Seat events: intake and deduplication (O25), and HELLO, which ends what a restarted unit's seat had (O27). -/

namespace Sys2Proof.Machine

/-! ### Intake (R26 to R28) -/

/-- A position names the seat of the trunk whose index it is one above (R26). -/
theorem seatOfPosition_some {t : Fin 4} {position : Fin 128} {x : Seat} (trunk : x.trunk = t) (pos : x.pos.val + 1 = position.val) :
    seatOfPosition t position = some x := by
  obtain ⟨xt, ⟨p, hp⟩⟩ := x
  obtain rfl : xt = t := trunk
  have valid : 1 ≤ position.val ∧ position.val ≤ 120 := by
    simp only at pos
    omega
  have index : position.val - 1 = p := by
    simp only at pos
    omega
  simp [seatOfPosition, valid, index]

/-- Position 0 and positions above 120 name no seat (R26). -/
theorem seatOfPosition_none (t : Fin 4) {position : Fin 128} (h : position.val = 0 ∨ 120 < position.val) : seatOfPosition t position = none :=
  dif_neg (by omega)

/-- The echo list keeps the latest two (R28). -/
theorem addEcho_eq (e : Echo) (l : List Echo) : addEcho e l = (l ++ [e]).drop (l.length - 1) := by
  have length : (l ++ [e]).length - 2 = l.length - 1 := by simp
  rw [addEcho, length]

/-- Intake echoes the event, makes the seat PRESENT and stores the serial; notice SEAT tells a change (R3, R27, R28). -/
theorem State.afterIntake_eq (s : State) (x : Seat) (serial : Fin 16) : s.afterIntake x serial =
    if (s.seatRec x).availability = .present
    then (s.echo x serial).modSeat x fun r => { r with availability := .present, lastSerial := some serial }
    else ((s.echo x serial).modSeat x fun r => { r with availability := .present, lastSerial := some serial }).notify (.seat x .present) := by
  have same : (s.echo x serial).seatRec x = s.seatRec x := rfl
  unfold State.afterIntake State.accept State.setAvailability
  rw [same]
  split
  · rename_i present
    simp only [State.modSeat, same, ← present]
  · rw [State.notify_modSeat]
    simp [State.modSeat, State.seatRec]

/-- An event of a trunk that is not UP, or that comes in the start-up hold, is not taken (R26, R191). -/
theorem State.seatEvent_not_taken {s : State} {t : Fin 4} (h : s.running = false ∨ (s.tpc t).link ≠ .up) (position : Fin 128) (serial : Fin 16)
    (kind : EventKind) (arg : Byte) : s.seatEvent t position serial kind arg = s := by
  refine if_neg fun taken => ?_
  rcases h with held | off
  · simp [held] at taken
  · exact off taken.2

/-! ### HELLO (R5) -/

theorem State.echo_queue (s : State) (x : Seat) (serial : Fin 16) : ((s.echo x serial).tpc x.trunk).queue = (s.tpc x.trunk).queue := by
  simp [State.echo]

/-- The state HELLO acts on: the event taken in, the confirm-key capability stored (R5, R27). -/
def State.greeted (s : State) (x : Seat) (serial : Fin 16) (arg : Byte) : State :=
  (s.afterIntake x serial).modSeat x fun r => { r with confirmKey := some (arg.getLsbD 0) }

@[simp] theorem State.greeted_far (s : State) (x : Seat) (serial : Fin 16) (arg : Byte) : (s.greeted x serial arg).far = s.far :=
  s.afterIntake_far x serial
@[simp] theorem State.greeted_slm (s : State) (x : Seat) (serial : Fin 16) (arg : Byte) : (s.greeted x serial arg).slm = s.slm :=
  s.afterIntake_slm x serial
@[simp] theorem State.greeted_fmx (s : State) (x : Seat) (serial : Fin 16) (arg : Byte) : (s.greeted x serial arg).fmx = s.fmx :=
  s.afterIntake_fmx x serial
@[simp] theorem State.greeted_chan (s : State) (x : Seat) (serial : Fin 16) (arg : Byte) (c : Fin 12) :
    (s.greeted x serial arg).chan c = s.chan c := by simp only [State.chan, State.greeted_far]
@[simp] theorem State.greeted_slmOf (s : State) (x : Seat) (serial : Fin 16) (arg : Byte) (c : Fin 12) :
    (s.greeted x serial arg).slmOf c = s.slmOf c := by simp only [State.slmOf, State.greeted_slm]
@[simp] theorem State.greeted_floorState (s : State) (x : Seat) (serial : Fin 16) (arg : Byte) :
    (s.greeted x serial arg).floorState x = s.floorState x := State.floorState_congr (s.greeted_far x serial arg) x
@[simp] theorem State.greeted_chanOf (s : State) (x : Seat) (serial : Fin 16) (arg : Byte) :
    (s.greeted x serial arg).chanOf x = s.chanOf x := by simp only [State.chanOf, State.greeted_chan]
@[simp] theorem State.greeted_successorChan (s : State) (x : Seat) (serial : Fin 16) (arg : Byte) :
    (s.greeted x serial arg).successorChan x = s.successorChan x := by simp only [State.successorChan, State.greeted_chan]
@[simp] theorem State.greeted_entryOf (s : State) (x : Seat) (serial : Fin 16) (arg : Byte) :
    (s.greeted x serial arg).entryOf x = s.entryOf x := by simp only [State.entryOf, State.greeted_far]
@[simp] theorem State.greeted_listIndex (s : State) (x : Seat) (serial : Fin 16) (arg : Byte) :
    (s.greeted x serial arg).listIndex x = s.listIndex x := by simp only [State.listIndex, State.greeted_far]

/-- Intake queues no command. -/
@[simp] theorem State.greeted_openUnsent (s : State) (x : Seat) (serial : Fin 16) (arg : Byte) :
    (s.greeted x serial arg).openUnsent x = s.openUnsent x := by
  have unsent : (s.greeted x serial arg).unsent x = s.unsent x := by
    unfold State.unsent
    rw [State.greeted, State.modSeat_tpc, State.afterIntake_tpc]
  simp only [State.openUnsent, unsent]

/-- What HELLO comes to: of a seat that was PRESENT it ends the floor state, hold membership and list control (R5). -/
theorem exec_hello {t : Fin 4} {position : Fin 128} {serial : Fin 16} {s : State} {x : Seat} (h : s.takesEvent t position serial x) (arg : Byte) :
    exec (.hello t position serial arg) s = .next (State.settle (if (s.seatRec x).availability = .present
      then (((s.greeted x serial arg).helloFloor x).priorityReleased x).listGiven x else s.greeted x serial arg)) := by
  have run := exec_seatEventOf .hello t position serial arg s
  rw [State.seatEvent_eq h .hello arg] at run
  refine run.trans ?_
  simp only [State.dispatch, State.helloed, decide_eq_true_eq]
  rfl

/-! What HELLO makes of a seat's place on the floor, by its floor state (R5). -/

section
variable {a : State} {x : Seat} {c : Fin 12}

theorem State.helloFloor_idle (h : a.floorState x = .idle ∨ a.floorState x = .closing) : a.helloFloor x = a := by
  rcases h with h | h <;> simp [State.helloFloor, h]

theorem State.helloFloor_waiting {i : Nat} (waiting : a.floorState x = .waiting) (index : a.listIndex x = some i) : a.helloFloor x
    = State.notify (.listRemove x .withdrawn i (a.far.list.length - 1)) { a with far := { a.far with list := a.far.list.eraseIdx i } } := by
  have floor : a.helloFloor x = a.listRemove x .withdrawn := by simp [State.helloFloor, waiting]
  rw [floor, State.listRemove_waiting waiting index (by decide)]

theorem State.helloFloor_offered {e : Entry} {i : Nat} (entry : a.entryOf x = some e) (offered : e.state = .offered)
    (index : a.listIndex x = some i) (chan : a.chanOf x = some c) (state : (a.chan c).state = .offered) :
    a.freed c (a.far.list.eraseIdx i) (a.place x .withdraw).trunks
      [.listRemove x .withdrawn i (a.far.list.length - 1), .chClose c x .released 0] (a.helloFloor x) := by
  have floor : a.helloFloor x = a.endOffer x .withdrawn .released true := by
    simp [State.helloFloor, State.floorState_of_offered entry offered]
  rw [floor]
  exact State.freed_of_endOffer entry offered index chan state .withdrawn .released true

/-- The channel of a seat past its offer gets a close request (R5, R60). -/
theorem State.helloFloor_closes (state : a.floorState x = .opening ∨ a.floorState x = .opened ∨ a.floorState x = .held)
    (chan : a.chanOf x = some c) : a.helloFloor x = a.closeRequest c .released := by
  rcases state with state | state | state <;> simp [State.helloFloor, state, State.closeSeat, chan]

theorem State.dropSuccession_eq (successor : a.successorChan x = some c) : a.dropSuccession x
    = { a with far := { a.far with channels := vset a.far.channels c { a.chan c with successor := none } } } := by
  simp [State.dropSuccession, successor, State.modChan]

theorem State.helloFloor_succeeding (state : a.floorState x = .succeeding) (successor : a.successorChan x = some c) : a.helloFloor x
    = { a with far := { a.far with channels := vset a.far.channels c { a.chan c with successor := none } } } := by
  rw [State.helloFloor, state]
  exact State.dropSuccession_eq successor

end

/-! ### Leaving as by PRIORITY_UP (R120, R121) -/

section
variable {u : State} {x : Seat}

theorem State.memberLeft_far (h : x ∈ u.far.holdSet) : (u.memberLeft x).far = { u.far with
    holdSet := u.far.holdSet.filter fun y => y ≠ x
    holdLevel := u.levelOfMembers (u.far.holdSet.filter fun y => y ≠ x) } := by
  simp [State.memberLeft, h]

@[simp] theorem State.memberLeft_trunks (u : State) (x : Seat) : (u.memberLeft x).trunks = u.trunks := by
  unfold State.memberLeft
  simp only
  split <;> simp

@[simp] theorem State.memberLeft_chan (u : State) (x : Seat) (c : Fin 12) : (u.memberLeft x).chan c = u.chan c := by
  unfold State.memberLeft
  simp only
  split <;> simp [State.chan]

theorem State.memberLeft_unsent (u : State) (x y : Seat) : (u.memberLeft x).unsent y = u.unsent y := by
  simp only [State.unsent, State.tpc, State.memberLeft_trunks]

theorem State.memberLeft_inFlightFor (u : State) (x y : Seat) : (u.memberLeft x).inFlightFor y = u.inFlightFor y := by
  simp only [State.inFlightFor, State.tpc, State.memberLeft_trunks]

/-- A member's release meets the floor with the level of those left (R120). -/
theorem State.priorityReleased_levelMet (u : State) (x : Seat) : State.levelMet u.far.holdLevel (u.memberLeft x) (u.priorityReleased x) :=
  State.holdChanged_levelMet (u.memberLeft x) u.far.holdLevel

theorem State.priorityReleased_of_not_mem (h : x ∉ u.far.holdSet) : u.priorityReleased x = u := by
  obtain ⟨same, -⟩ := u.priorityReleased_levelMet x
  rw [State.memberLeft_of_not_mem h] at same
  exact same rfl

end

end Sys2Proof.Machine

namespace Sys2Proof.Proofs

open Sys2Proof.Machine

/-- Settles O25. -/
theorem seatEventsAreDeduplicated : Obligations.SeatEventsAreDeduplicated := by
  unfold Obligations.SeatEventsAreDeduplicated
  intro kind t position serial arg s
  simp only [exec_seatEventOf]
  refine ⟨fun not_taken => ?_, fun running up invalid => ?_, fun x trunk pos running up => ?_⟩
  · rw [State.seatEvent_not_taken not_taken]
  · simp only [State.seatEvent, running, up, and_self, if_true, State.takeEvent, seatOfPosition_none t invalid]
    rfl
  · have seat := seatOfPosition_some trunk pos
    subst trunk
    have echoed : s.echo x serial = { s with trunks := vset s.trunks x.trunk { s.tpc x.trunk with
        echoes := ((s.tpc x.trunk).echoes ++ [(⟨x.pos, serial⟩ : Echo)]).drop ((s.tpc x.trunk).echoes.length - 1) } } := by
      simp only [State.echo, State.modTpc, addEcho_eq]
    refine ⟨fun repeated => ?_, fun new => ⟨?_, ?_⟩⟩
    · rw [← echoed]
      simp only [State.seatEvent, running, up, and_self, if_true, State.takeEvent, seat, repeated]
    · rw [State.seatEvent_eq ⟨running, up, seat, new⟩]
    · rw [State.afterIntake_eq, echoed]
      rfl

/-- Settles O27: `exec_hello` says what HELLO runs, the lemmas on `helloFloor` what it makes of each floor state, and `levelMet` what the fall of
the hold level comes to. -/
theorem helloRestartsUnit : Obligations.HelloRestartsUnit := by
  unfold Obligations.HelloRestartsUnit
  refine ⟨fun t position serial arg s x taken => ?_, fun u x => ?_⟩
  · intro a hello leaves
    have run := exec_hello taken arg
    refine ⟨fun absent => ?_, fun present => ?_⟩
    · rw [if_neg absent] at run
      exact run
    rw [if_pos present] at run
    have leaves_floor : ∀ v, (s.greeted x serial arg).helloFloor x = v → leaves v := by
      rintro v rfl
      exact run
    refine ⟨fun idle => ?_, fun i waiting index => ?_, fun e i c entry offered index chan state => ?_, fun c opening chan unsent => ?_,
      fun c state chan => ?_, fun c succeeding successor => ?_⟩
    · exact leaves_floor a (State.helloFloor_idle (by simpa using idle))
    · refine leaves_floor _ ((State.helloFloor_waiting (by simpa using waiting) (by simpa using index)).trans ?_)
      rw [State.greeted_far]
      rfl
    · have freed := State.helloFloor_offered (a := s.greeted x serial arg) (x := x) (by simpa using entry) offered (by simpa using index)
        (by simpa using chan) (by simpa using state)
      obtain ⟨cleared, others, far, trunks, stb, slm, fmx, notices⟩ := freed
      simp only [State.greeted_chan, State.greeted_far, State.greeted_slm, State.greeted_fmx] at others far slm fmx notices
      exact ⟨_, leaves_floor _ rfl, cleared, others, far, trunks, stb, slm, fmx, notices⟩
    · have channel := State.chanState_of_floorState chan
      have freed := State.freed_of_openUnsent (s := s.greeted x serial arg) (c := c) (x := x) .released (by simpa using channel.1 opening)
        (by simpa using State.chanOf_seat chan) (by simpa using unsent)
      rw [← State.helloFloor_closes (x := x) (.inl (by simpa using opening)) (by simpa using chan)] at freed
      obtain ⟨cleared, others, far, trunks, stb, slm, fmx, notices⟩ := freed
      simp only [State.greeted_chan, State.greeted_far, State.greeted_slm, State.greeted_fmx] at others far slm fmx
      exact ⟨_, leaves_floor _ rfl, cleared, others, far, trunks, stb, slm, fmx, notices⟩
    · have closed := State.closingOf_floorState (s := s.greeted x serial arg) (c := c) (x := x) .released (by simpa using chan) (by simpa using state)
      rw [← State.helloFloor_closes (x := x) (by rw [State.greeted_floorState]; exact state.imp_left And.left) (by simpa using chan)] at closed
      obtain ⟨entry, others, far, trunks, fmx, slm, stb, notices⟩ := closed
      obtain ⟨opened, opening⟩ := State.chanState_iff_floorState chan (state.imp_left And.left)
      simp only [State.greeted_chan, State.greeted_far, State.greeted_fmx, opened, opening] at entry others far fmx slm stb
      refine ⟨_, leaves_floor _ rfl, entry, others, far, trunks, fmx, slm.trans ?_, stb.trans ?_, notices⟩
      · split
        · simp only [State.withoutWindow, State.greeted_slm, State.greeted_slmOf]
        · exact s.greeted_slm x serial arg
      · simp only [State.withClock, State.greeted_slmOf]
        rfl
    · refine leaves_floor _ ((State.helloFloor_succeeding (by simpa using succeeding) (by simpa using successor)).trans ?_)
      rw [State.greeted_far, State.greeted_chan]
      rfl
  · intro members level left
    have met := u.priorityReleased_levelMet x
    refine ⟨State.priorityReleased_of_not_mem, fun member same => ?_, fun member fell => ?_, fun member fell none => ?_,
      fun c y l member fell only seat copied high unsent flight => ?_, fun other => if_neg other, fun holder => if_pos holder⟩
    all_goals
      have gone : u.memberLeft x = left := if_pos member
      have chan : ∀ c, left.chan c = u.chan c := gone ▸ u.memberLeft_chan x
      have reached : left.far.holdLevel = level := by rw [← gone, State.memberLeft_far member]
      rw [gone] at met
      obtain ⟨unchanged, fallen, none_held, one_held, -⟩ := met
    · exact unchanged (reached.trans same)
    · exact fallen (reached.trans_lt fell)
    · exact none_held (reached.trans_lt fell) (by simpa only [chan] using none)
    · have unsent' : left.unsent y = u.unsent y := gone ▸ u.memberLeft_unsent x y
      have flight' : left.inFlightFor y = u.inFlightFor y := gone ▸ u.memberLeft_inFlightFor x y
      obtain ⟨-, places⟩ := one_held c y l (reached.trans_lt fell) (by simpa only [chan] using only) (by rwa [chan]) (by rwa [chan])
      exact places (reached.trans_le high) (unsent'.trans unsent) (flight' ▸ flight)

end Sys2Proof.Proofs
end

section
/-! PROOF. Probes and failed attempts (O43): how each sets a seat's availability, and what losing a seat clears from the floor. -/

namespace Sys2Proof.Machine

/-! ### Notices beside a flag (R173, R186) -/

theorem State.notices_setFlag (s : State) (ns : List Notice) (g : Flag) : (s.setFlag g).notices ns = (s.notices ns).setFlag g := by
  induction ns generalizing s with
  | nil => rfl
  | cons n ns ih => rw [State.notices_cons, State.notices_cons, ← State.notify_setFlag, ih]

/-- A flag set beside a handling that queues only notices. -/
theorem State.onlyNotices_setFlag {s u : State} {ns : List Notice} (h : s.onlyNotices ns u) (g : Flag) :
    (s.setFlag g).onlyNotices ns (u.setFlag g) := by
  obtain ⟨h1, h2, h3, h4, h5, h6, h7, hli, mge⟩ := h
  refine ⟨h1, h2, h3, h4, h5, h6, h7, ?_, ?_⟩
  · rw [State.notices_setFlag]
    exact hli
  · rw [State.notices_setFlag]
    simp only [State.setFlag, mge]

/-! ### The census (R40, R41) -/

/-- `u` with the probe of a position of trunk `t` counted: that of position 120 completes the census (R40, R41). -/
def State.probeCounted (t : Fin 4) (pos : Fin 120) (u : State) : State :=
  let q := { u.tpc t with probed := min 120 ((u.tpc t).probed + 1) }
  if posNumber pos = 120 then State.notify (.census t .done q.presentCount) { u with
    trunks := vset u.trunks t { q with censusRunning := false, censusOutcome := .done }
    mge := { u.mge with flags := flagsSet .censusDone u.mge.flags }
    far := { u.far with promotionDeferred := true } }
  else { u with trunks := vset u.trunks t q }

theorem State.probeSettled_eq (s : State) (t : Fin 4) (pos : Fin 120) : s.probeSettled t pos = s.probeCounted t pos := by
  unfold State.probeSettled State.probeCounted
  refine ite_congr rfl (fun _ => ?_) fun _ => rfl
  simp only [State.endCensus, State.notify_trigger, State.setFlag_tpc, State.modTpc_tpc_self]
  simp [State.trigger, State.modFar, State.setFlag, State.modTpc, State.tpc]

/-! ### A probe answered (R3, R40) -/

/-- The state in which an answered probe is counted: the command no longer in flight, the seat PRESENT with its capability, and counted. -/
def State.answeredBy (s : State) (x : Seat) (data : Byte) : State := { s with
  stb := { s.stb with seats := vset s.stb.seats (seatIndex x) { s.seatRec x with
    availability := .present
    confirmKey := some (data.getLsbD 0)
    lastSerial := if (s.seatRec x).availability = .present then (s.seatRec x).lastSerial else none } }
  trunks := vset s.trunks x.trunk { s.tpc x.trunk with
    inFlight := none, presentCount := min 120 ((s.tpc x.trunk).presentCount + 1) } }

/-- Notice SEAT where the seat was not PRESENT (R3). -/
def State.presenceNotices (s : State) (x : Seat) : List Notice :=
  if (s.seatRec x).availability = .present then [] else [.seat x .present]

theorem State.probeAnswer_eq (s : State) (x : Seat) (data : Byte) : (s.endDelivery x.trunk).probeAnswer x data
    = (((s.answeredBy x data).notices (s.presenceNotices x)).probeCounted x.trunk x.pos) := by
  have same : (s.endDelivery x.trunk).seatRec x = s.seatRec x := rfl
  unfold State.probeAnswer
  rw [State.probeSettled_eq]
  congr 1
  unfold State.setAvailability State.presenceNotices
  rw [same]
  split
  · rename_i present
    simp [State.answeredBy, State.endDelivery, State.modSeat, State.modTpc, State.tpc, State.seatRec, ← present]
  · rename_i absent
    simp only [State.notices_cons, State.notices_nil, State.notify_modSeat, State.notify_modTpc, State.answeredBy, if_neg absent]
    simp [State.endDelivery, State.modSeat, State.modTpc, State.tpc, State.seatRec]

@[simp] theorem State.notices_far (s : State) (ns : List Notice) : (s.notices ns).far = s.far := by
  induction ns generalizing s with
  | nil => rfl
  | cons n ns ih => rw [State.notices_cons, ih, State.notify_far]

@[simp] theorem State.notices_trunks (s : State) (ns : List Notice) : (s.notices ns).trunks = s.trunks := by
  induction ns generalizing s with
  | nil => rfl
  | cons n ns ih => rw [State.notices_cons, ih, State.notify_trunks]

@[simp] theorem State.notices_stb (s : State) (ns : List Notice) : (s.notices ns).stb = s.stb := by
  induction ns generalizing s with
  | nil => rfl
  | cons n ns ih => rw [State.notices_cons, ih, State.notify_stb]

@[simp] theorem State.notices_slm (s : State) (ns : List Notice) : (s.notices ns).slm = s.slm := by
  induction ns generalizing s with
  | nil => rfl
  | cons n ns ih => rw [State.notices_cons, ih, State.notify_slm]

@[simp] theorem State.notices_fmx (s : State) (ns : List Notice) : (s.notices ns).fmx = s.fmx := by
  induction ns generalizing s with
  | nil => rfl
  | cons n ns ih => rw [State.notices_cons, ih, State.notify_fmx]

theorem State.onlyNotices_notices (s : State) (ns : List Notice) : s.onlyNotices ns (s.notices ns) := by
  induction ns generalizing s with
  | nil => exact s.onlyNotices_refl
  | cons n ns ih => exact State.onlyNotices_trans (s.onlyNotices_notify n) (ih _)

/-- What counting a probe changes (R40, R41). -/
theorem State.probeCounted_spec (u : State) (t : Fin 4) (pos : Fin 120) :
    (u.probeCounted t pos).stb = u.stb ∧ (u.probeCounted t pos).slm = u.slm ∧ (u.probeCounted t pos).fmx = u.fmx
      ∧ (u.probeCounted t pos).trunks = vset u.trunks t
        (let p : Tpc := { u.tpc t with probed := min 120 ((u.tpc t).probed + 1) }
        if posNumber pos = 120 then { p with censusRunning := false, censusOutcome := .done } else p)
      ∧ (u.probeCounted t pos).far = (if posNumber pos = 120 then { u.far with promotionDeferred := true } else u.far)
      ∧ (if posNumber pos = 120 then u.setFlag .censusDone else u).onlyNotices
        (if posNumber pos = 120 then [.census t .done (u.tpc t).presentCount] else []) (u.probeCounted t pos) := by
  unfold State.probeCounted
  by_cases last : posNumber pos = 120
  · simp only [last, if_true, State.notify_stb, State.notify_slm, State.notify_fmx, State.notify_trunks, State.notify_far, true_and]
    refine State.onlyNotices_after ?_ (State.onlyNotices_notify _ _)
    exact State.onlyNotices_of rfl rfl rfl rfl rfl rfl rfl rfl rfl
  · simp only [last, if_false, true_and]
    exact State.onlyNotices_of rfl rfl rfl rfl rfl rfl rfl rfl rfl

/-- PROBE_ANSWERED of a seat whose probe awaits its answer (R40). -/
theorem exec_probeAnswered {s : State} {x : Seat} (awaiting : s.awaiting x = some .probe) (result : AckResult) (data : Byte) :
    exec (.probeAnswered x result data) s
      = .next (((s.answeredBy x data).notices (s.presenceNotices x)).probeCounted x.trunk x.pos).settle := by
  show Host.Outcome.next (s.takeAck x (fun cmd => cmd == .probe) result data) = _
  rw [← State.probeAnswer_eq]
  simp [State.takeAck, awaiting, State.completed]

/-! ### An attempt failed (R36, R40) -/

/-- COMMAND_ATTEMPT_FAILED on a trunk with an attempt in flight (R36). -/
theorem exec_attemptFailed {s : State} {t : Fin 4} {f : InFlight} (attempt : s.openAttempt t = some f) :
    exec (.commandAttemptFailed t) s = .next (s.attemptFailed t f).settle := by
  show Host.Outcome.next (match s.openAttempt t with | some f => (s.attemptFailed t f).settle | none => s) = _
  rw [attempt]

/-- The seat of a command no longer in flight has left PRESENT for `availability`: its unsent command is discarded, the failures count stands as
given, and notice SEAT tells a change (R3, R36, R38). -/
def State.undelivered (s : State) (t : Fin 4) (pos : Fin 120) (availability : Availability) (failures : Nat) : State :=
  let u : State := { s with trunks := vset s.trunks t { s.tpc t with
    inFlight := none, cmdFailures := failures, queue := (s.tpc t).queue.filter fun e => e.target ≠ some pos } }
  if (s.seatRec ⟨t, pos⟩).availability = availability then u
  else State.notify (.seat ⟨t, pos⟩ availability) { u with stb := { s.stb with
    seats := vset s.stb.seats (seatIndex ⟨t, pos⟩) { s.seatRec ⟨t, pos⟩ with availability := availability, lastSerial := none } } }

theorem State.undelivered_eq (s : State) (t : Fin 4) (pos : Fin 120) (availability : Availability) (failures : Nat) :
    ((s.modTpc t fun p => { p with inFlight := none, cmdFailures := failures }).setAvailability ⟨t, pos⟩ availability).discardUnsent ⟨t, pos⟩
      = s.undelivered t pos availability failures := by
  unfold State.setAvailability State.undelivered
  simp only [State.modTpc_seatRec]
  by_cases same : (s.seatRec ⟨t, pos⟩).availability = availability
  · simp only [same, if_true]
    simp [State.discardUnsent, State.modTpc, State.tpc]
  · simp only [same, if_false, State.discardUnsent, State.notify_modTpc]
    simp [State.modSeat, State.modTpc, State.tpc, State.seatRec]

/-- A delivery failed makes the seat UNREACHABLE and loses it (R36). -/
theorem State.deliveryFailed_eq (s : State) (t : Fin 4) (pos : Fin 120) : s.deliveryFailed ⟨t, pos⟩
    = ((s.undelivered t pos .unreachable (min 255 ((s.tpc t).cmdFailures + 1))).setFlag .seatLost).loseSeat ⟨t, pos⟩ := by
  rw [← State.undelivered_eq]
  unfold State.deliveryFailed
  have counted : (s.endDelivery t).modTpc t (fun p => { p with cmdFailures := satAdd 255 p.cmdFailures 1 })
      = s.modTpc t fun p => { p with inFlight := none, cmdFailures := min 255 ((s.tpc t).cmdFailures + 1) } := by
    simp [State.endDelivery, State.modTpc, State.tpc, satAdd]
  simp only [counted]
  rfl

/-- A probe unanswered by a seat that was not ABSENT makes it ABSENT and loses it (R40). -/
theorem State.probeUnanswered_eq {s : State} {t : Fin 4} {pos : Fin 120} (known : (s.seatRec ⟨t, pos⟩).availability ≠ .absent) :
    (s.endDelivery t).probeUnanswered ⟨t, pos⟩
      = ((s.undelivered t pos .absent (s.tpc t).cmdFailures).loseSeat ⟨t, pos⟩).probeCounted t pos := by
  have same : (s.endDelivery t).seatRec ⟨t, pos⟩ = s.seatRec ⟨t, pos⟩ := rfl
  have delivery : s.endDelivery t = s.modTpc t fun p => { p with inFlight := none, cmdFailures := (s.tpc t).cmdFailures } := rfl
  rw [State.probeUnanswered, same, if_neg known, State.probeSettled_eq, delivery, State.undelivered_eq]

/-- A probe unanswered by an ABSENT seat is only counted (R40). -/
theorem State.probeUnanswered_absent {s : State} {t : Fin 4} {pos : Fin 120} (absent : (s.seatRec ⟨t, pos⟩).availability = .absent) :
    (s.endDelivery t).probeUnanswered ⟨t, pos⟩ = (s.endDelivery t).probeCounted t pos := by
  have same : (s.endDelivery t).seatRec ⟨t, pos⟩ = s.seatRec ⟨t, pos⟩ := rfl
  rw [State.probeUnanswered, same, if_pos absent, State.probeSettled_eq]

/-- A command that has attempts left is to be retried (R36). -/
theorem exec_retry {s : State} {t : Fin 4} {f : InFlight} (attempt : s.openAttempt t = some f) (command : f.cmd ≠ .probe)
    (more : f.attempts < s.mge.settings.retryLimit) : exec (.commandAttemptFailed t) s
      = .next (State.settle { s with trunks := vset s.trunks t { s.tpc t with inFlight := some { f with status := .retry } } }) := by
  rw [exec_attemptFailed attempt, State.attemptFailed, if_neg command, if_pos more]
  rfl

/-- The last attempt of a command loses its seat as UNREACHABLE (R36). -/
theorem exec_deliveryFailed {s : State} {t : Fin 4} {f : InFlight} (attempt : s.openAttempt t = some f) (command : f.cmd ≠ .probe)
    (spent : s.mge.settings.retryLimit ≤ f.attempts) : exec (.commandAttemptFailed t) s = .next (State.settle (State.loseSeat ⟨t, f.pos⟩
      ((s.undelivered t f.pos .unreachable (min 255 ((s.tpc t).cmdFailures + 1))).setFlag .seatLost))) := by
  rw [exec_attemptFailed attempt, State.attemptFailed, if_neg command, if_neg (not_lt.mpr spent), State.deliveryFailed_eq]

/-- An unanswered probe of a seat not ABSENT loses it as ABSENT, and is counted (R40). -/
theorem exec_probeUnanswered {s : State} {t : Fin 4} {f : InFlight} (attempt : s.openAttempt t = some f) (probe : f.cmd = .probe)
    (known : (s.seatRec ⟨t, f.pos⟩).availability ≠ .absent) : exec (.commandAttemptFailed t) s = .next (State.settle (State.probeCounted t f.pos
      (State.loseSeat ⟨t, f.pos⟩ (s.undelivered t f.pos .absent (s.tpc t).cmdFailures)))) := by
  rw [exec_attemptFailed attempt, State.attemptFailed, if_pos probe, State.probeUnanswered_eq known]

/-- An unanswered probe of an ABSENT seat is only counted (R40). -/
theorem exec_probeUnanswered_absent {s : State} {t : Fin 4} {f : InFlight} (attempt : s.openAttempt t = some f) (probe : f.cmd = .probe)
    (absent : (s.seatRec ⟨t, f.pos⟩).availability = .absent) :
    exec (.commandAttemptFailed t) s = .next (State.settle (State.probeCounted t f.pos (s.endDelivery t))) := by
  rw [exec_attemptFailed attempt, State.attemptFailed, if_pos probe, State.probeUnanswered_absent absent]

section
variable {s : State} {t : Fin 4} {pos : Fin 120} {availability : Availability} {failures : Nat}

@[simp] theorem State.undelivered_far : (s.undelivered t pos availability failures).far = s.far := by
  unfold State.undelivered
  simp only
  split <;> simp

@[simp] theorem State.undelivered_slm : (s.undelivered t pos availability failures).slm = s.slm := by
  unfold State.undelivered
  simp only
  split <;> simp

@[simp] theorem State.undelivered_chan (c : Fin 12) : (s.undelivered t pos availability failures).chan c = s.chan c := by
  simp only [State.chan, State.undelivered_far]

/-- The seat has the availability named, and keeps its speaking total. -/
theorem State.undelivered_seatRec : ((s.undelivered t pos availability failures).seatRec ⟨t, pos⟩).availability = availability
    ∧ ((s.undelivered t pos availability failures).seatRec ⟨t, pos⟩).speakingTotal = (s.seatRec ⟨t, pos⟩).speakingTotal := by
  unfold State.undelivered
  simp only
  split
  · rename_i same
    exact ⟨same, rfl⟩
  · simp [State.seatRec]

theorem State.undelivered_setFlag (g : Flag) : (s.undelivered t pos availability failures).setFlag g
    = State.undelivered { s with mge := { s.mge with flags := flagsSet g s.mge.flags } } t pos availability failures := by
  unfold State.undelivered
  simp only [apply_ite (State.setFlag g), State.notify_setFlag]
  rfl

theorem State.undelivered_notices : s.onlyNotices (if (s.seatRec ⟨t, pos⟩).availability = availability then [] else [.seat ⟨t, pos⟩ availability])
    (s.undelivered t pos availability failures) := by
  unfold State.undelivered
  simp only
  split
  · exact State.onlyNotices_of rfl rfl rfl rfl rfl rfl rfl rfl rfl
  · refine State.onlyNotices_after ?_ (State.onlyNotices_notify _ _)
    exact State.onlyNotices_of rfl rfl rfl rfl rfl rfl rfl rfl rfl

end

/-- A probe of a position other than 120 is only counted (R40). -/
theorem State.probeCounted_of_ne {t : Fin 4} {pos : Fin 120} (h : posNumber pos ≠ 120) (u : State) :
    u.probeCounted t pos = u.modTpc t fun p => { p with probed := min 120 (p.probed + 1) } := if_neg h

/-! ### Losing a seat, by its floor state (R4) -/

section
variable {s : State} {x : Seat} {c : Fin 12}

theorem State.clearLost_idle (idle : s.floorState x = .idle) : s.clearLost x = (s.memberLeft x).holderLeft x := by
  simp only [State.clearLost, idle, State.leaveHold_eq, State.clearHolder_eq]

theorem State.clearLost_waiting {i : Nat} (waiting : s.floorState x = .waiting) (index : s.listIndex x = some i) : s.clearLost x
    = ((State.notify (.listRemove x .lost i (s.far.list.length - 1))
        { s with far := { s.far with list := s.far.list.eraseIdx i } }).memberLeft x).holderLeft x := by
  rw [← State.listRemove_waiting waiting index (by decide)]
  simp only [State.clearLost, waiting, State.leaveHold_eq, State.clearHolder_eq]

theorem State.clearLost_offered (offered : s.floorState x = .offered) :
    s.clearLost x = ((s.endOffer x .lost .unreachable false).memberLeft x).holderLeft x := by
  simp only [State.clearLost, offered, State.leaveHold_eq, State.clearHolder_eq]

/-- An OPENING, OPEN or HELD channel is freed. -/
theorem State.clearLost_frees (chan : s.chanOf x = some c)
    (state : s.floorState x = .opening ∨ s.floorState x = .opened ∨ s.floorState x = .held) :
    s.clearLost x = ((s.freeChannel c .unreachable).memberLeft x).holderLeft x := by
  rcases state with state | state | state <;> simp only [State.clearLost, state, chan, State.leaveHold_eq, State.clearHolder_eq]

theorem State.clearLost_closing (chan : s.chanOf x = some c) (closing : s.floorState x = .closing) :
    s.clearLost x = ((s.endClose c).memberLeft x).holderLeft x := by
  simp only [State.clearLost, closing, chan, State.leaveHold_eq, State.clearHolder_eq]

theorem State.clearLost_succeeding (succeeding : s.floorState x = .succeeding) (successor : s.successorChan x = some c) : s.clearLost x
    = (State.memberLeft { s with far := { s.far with channels := vset s.far.channels c { s.chan c with successor := none } } } x).holderLeft x := by
  rw [← State.dropSuccession_eq successor]
  simp only [State.clearLost, succeeding, State.leaveHold_eq, State.clearHolder_eq]

/-- What losing a seat comes to, its place on the floor cleared to `u`. -/
theorem State.loseSeat_levelMet {u : State} (cleared : s.clearLost x = (u.memberLeft x).holderLeft x) :
    State.levelMet s.far.holdLevel ((u.memberLeft x).holderLeft x) (s.loseSeat x) := by
  rw [← cleared]
  exact State.holdChanged_levelMet _ _

/-- A seat with no place on the floor, in the hold set or in list control has nothing to clear. -/
theorem State.loseSeat_idle (idle : s.floorState x = .idle) (outside : x ∉ s.far.holdSet) (other : s.far.holder ≠ some x) : s.loseSeat x = s := by
  rw [State.loseSeat, State.clearLost_idle idle, State.memberLeft_of_not_mem outside, State.holderLeft_of_ne other, State.holdChanged_same rfl]

@[simp] theorem State.holderLeft_stb (u : State) (x : Seat) : (u.holderLeft x).stb = u.stb := by
  unfold State.holderLeft
  split <;> simp

theorem State.holderLeft_far (u : State) (x : Seat) : (u.holderLeft x).far
    = { u.far with holder := if u.far.holder = some x then none else u.far.holder } := by
  unfold State.holderLeft
  split <;> simp

@[simp] theorem State.holderLeft_chan (u : State) (x : Seat) (c : Fin 12) : (u.holderLeft x).chan c = u.chan c := by
  simp only [State.chan, State.holderLeft_far]

theorem State.holderLeft_notices (u : State) (x : Seat) :
    u.onlyNotices (if u.far.holder = some x then [.listControl u.far.claimed none u.far.forceReturn] else []) (u.holderLeft x) := by
  unfold State.holderLeft
  split
  · refine State.onlyNotices_then (State.onlyNotices_after ?_ (State.onlyNotices_notify _ _)) (State.onlyNotices_place _ _ _)
    exact State.onlyNotices_of rfl rfl rfl rfl rfl rfl rfl rfl rfl
  · exact u.onlyNotices_refl

/-- An OPEN seat that is no hold-set member loses its channel and list control, and the hold level stays (R4, R63, R132). -/
theorem State.loseSeat_opened (opened : s.floorState x = .opened) (chan : s.chanOf x = some c) (outside : x ∉ s.far.holdSet) :
    s.loseSeat x = (s.freeChannel c .unreachable).holderLeft x := by
  have state := (State.chanState_of_floorState chan).2.1 opened
  obtain ⟨-, -, far, -⟩ := State.freed_of_opened .unreachable state (State.chanOf_seat chan)
  have stays : x ∉ (s.freeChannel c .unreachable).far.holdSet := by rw [far]; exact outside
  rw [State.loseSeat, State.clearLost_frees chan (.inr (.inl opened)), State.memberLeft_of_not_mem stays]
  refine State.holdChanged_same ?_
  rw [State.holderLeft_far, far]
  rfl

/-- What losing such a seat changes, with its notices. -/
theorem State.loseSeat_opened_spec (opened : s.floorState x = .opened) (chan : s.chanOf x = some c) (outside : x ∉ s.far.holdSet) :
    (s.loseSeat x).chan c = Channel.reset ∧ ((s.loseSeat x).seatRec x).availability = (s.seatRec x).availability
      ∧ (s.loseSeat x).far.promotionDeferred = true ∧ (s.loseSeat x).far.list = s.far.list
      ∧ (s.loseSeat x).far.openSeq = s.far.openSeq.filter (fun d => d ≠ c)
      ∧ ((s.loseSeat x).seatRec x).speakingTotal = min 999999 ((s.seatRec x).speakingTotal + (s.slmOf c).clock)
      ∧ s.onlyNotices (.chClose c x .unreachable (s.slmOf c).clock
          :: if s.far.holder = some x then [.listControl s.far.claimed none s.far.forceReturn] else []) (s.loseSeat x) := by
  rw [State.loseSeat_opened opened chan outside]
  have state := (State.chanState_of_floorState chan).2.1 opened
  obtain ⟨cleared, -, far, -, stb, -, -, freed⟩ := State.freed_of_opened .unreachable state (State.chanOf_seat chan)
  have record : ((s.freeChannel c .unreachable).holderLeft x).seatRec x
      = { s.seatRec x with speakingTotal := min 999999 ((s.seatRec x).speakingTotal + (s.slmOf c).clock) } := by
    simp [State.seatRec, stb, State.withClock, State.withoutWindow, State.modSeat]
  have told := (s.freeChannel c .unreachable).holderLeft_notices x
  rw [far] at told
  refine ⟨by simpa using cleared, by rw [record], ?_, ?_, ?_, by rw [record], ?_⟩
  · rw [State.holderLeft_far, far]
  · rw [State.holderLeft_far, far]
  · rw [State.holderLeft_far, far]
    rfl
  · refine State.onlyNotices_trans (State.onlyNotices_after ?_ freed) told
    exact State.onlyNotices_of rfl rfl rfl rfl rfl rfl rfl rfl rfl

end

end Sys2Proof.Machine

namespace Sys2Proof.Proofs

open Sys2Proof.Machine

/-- Settles O43: each answer and failed attempt by the `exec_` equation of its case, and the clearing of a lost seat by the `clearLost_` lemma of its
floor state. -/
theorem probesAndFailedAttemptsSetAvailability : Obligations.ProbesAndFailedAttemptsSetAvailability := by
  unfold Obligations.ProbesAndFailedAttemptsSetAvailability
  refine ⟨fun x result data s => ⟨fun nothing => ?_, fun awaiting => ?_⟩, fun t s => ⟨fun nothing => ?_, fun f attempt => ?_⟩, fun s x => ?_⟩
  · show Host.Outcome.next (s.takeAck x (fun cmd => cmd == .probe) result data) = _
    simp only [State.takeAck, nothing]
  · have told : s.onlyNotices (s.presenceNotices x) ((s.answeredBy x data).notices (s.presenceNotices x)) :=
      State.onlyNotices_after (b := s.answeredBy x data) (State.onlyNotices_of rfl rfl rfl rfl rfl rfl rfl rfl rfl)
        (State.onlyNotices_notices _ _)
    have port : (((s.answeredBy x data).notices (s.presenceNotices x)).tpc x.trunk) = { s.tpc x.trunk with
        inFlight := none, presentCount := min 120 ((s.tpc x.trunk).presentCount + 1) } := by
      simp [State.tpc, State.answeredBy]
    obtain ⟨stb, slm, fmx, trunks, far, notices⟩ := ((s.answeredBy x data).notices (s.presenceNotices x)).probeCounted_spec x.trunk x.pos
    rw [port] at trunks notices
    have all := State.onlyNotices_trans (a := if posNumber x.pos = 120 then s.setFlag .censusDone else s) (by
      split
      · exact State.onlyNotices_setFlag told .censusDone
      · exact told) notices
    refine ⟨_, exec_probeAnswered awaiting result data, ?_, fun t other => ?_, ?_, ?_, fun last => ?_, ?_, ?_, all⟩
    · rw [stb, State.notices_stb]
      rfl
    · rw [State.tpc, trunks, vget_vset_other _ _ _ _ other.symm, State.notices_trunks]
      exact vget_vset_other _ _ _ _ other.symm
    · exact (congrArg (fun v => vget v x.trunk) trunks).trans (vget_vset_self _ _ _)
    · rw [far, State.notices_far]
      rfl
    · rw [if_pos last] at all
      exact State.onlyNotices_hasFlag all
    · rw [slm, State.notices_slm]
      rfl
    · rw [fmx, State.notices_fmx]
      rfl
  · show Host.Outcome.next (match s.openAttempt t with | some f => (s.attemptFailed t f).settle | none => s) = _
    rw [nothing]
  · intro x p
    have floor : ∀ availability failures, (s.undelivered t f.pos availability failures).floorState x = s.floorState x := fun _ _ =>
      State.floorState_congr State.undelivered_far x
    have marked : ∀ availability failures, ((s.undelivered t f.pos availability failures).setFlag .seatLost).floorState x = s.floorState x :=
      fun _ _ => State.floorState_congr (by simp) x
    have idle_unreachable : s.floorState x = .idle → x ∉ s.far.holdSet → s.far.holder ≠ some x →
        State.loseSeat x ((s.undelivered t f.pos .unreachable (min 255 (p.cmdFailures + 1))).setFlag .seatLost)
          = (s.undelivered t f.pos .unreachable (min 255 (p.cmdFailures + 1))).setFlag .seatLost := fun idle outside other =>
      State.loseSeat_idle ((marked _ _).trans idle) (by simpa using outside) (by simpa using other)
    refine ⟨fun command more => ?_, fun command spent idle outside other => ?_, fun command spent c opened chan outside => ?_,
      fun probe absent notLast => ?_, fun probe known notLast idle outside other => ?_, ?_⟩
    · exact exec_retry attempt command more
    · rw [exec_deliveryFailed attempt command spent, idle_unreachable idle outside other, State.undelivered_setFlag]
      rfl
    · have spec := State.loseSeat_opened_spec
        (s := (s.undelivered t f.pos .unreachable (min 255 (p.cmdFailures + 1))).setFlag .seatLost) (x := x) (c := c)
        ((marked _ _).trans opened) (by simpa [State.chanOf] using chan) (by simpa using outside)
      obtain ⟨cleared, availability, deferred, list, openSeq, total, told⟩ := spec
      obtain ⟨unreachable, kept⟩ := State.undelivered_seatRec (s := s) (t := t) (pos := f.pos) (availability := .unreachable)
        (failures := min 255 (p.cmdFailures + 1))
      have clock : ((s.undelivered t f.pos .unreachable (min 255 (p.cmdFailures + 1))).setFlag .seatLost).slmOf c = s.slmOf c := by
        simp [State.slmOf]
      simp only [clock, State.setFlag_far, State.undelivered_far, State.setFlag_seatRec] at availability list openSeq total told
      have all := State.onlyNotices_trans (State.onlyNotices_setFlag State.undelivered_notices .seatLost) told
      exact ⟨_, exec_deliveryFailed attempt command spent, cleared, availability.trans unreachable, State.onlyNotices_hasFlag all, deferred, list,
        openSeq, total.trans (by rw [kept]), all⟩
    · rw [exec_probeUnanswered_absent attempt probe absent, State.probeCounted_of_ne notLast]
      simp [State.endDelivery, State.modTpc, State.tpc, p]
    · rw [exec_probeUnanswered attempt probe known, State.loseSeat_idle ((floor _ _).trans idle) (by simpa using outside) (by simpa using other),
        State.probeCounted_of_ne notLast, State.undelivered, if_neg known]
      simp only [State.notify_modTpc]
      simp [State.modTpc, State.tpc, p, x]
    · intro gone settled
      have left_present : ∀ availability failures, gone availability failures = s.undelivered t f.pos availability failures := fun _ _ => rfl
      have counted : ∀ u, settled u = u.probeCounted t f.pos := fun _ => rfl
      simp only [left_present, counted]
      exact ⟨exec_deliveryFailed attempt, exec_probeUnanswered attempt, exec_probeUnanswered_absent attempt⟩
  · intro cleared
    refine ⟨fun idle => ?_, fun i waiting index => ?_, fun e i c entry offered index chan state => ?_, fun c chan => ?_, fun c succeeding successor => ?_⟩
    · exact State.loseSeat_levelMet (State.clearLost_idle idle)
    · exact State.loseSeat_levelMet (State.clearLost_waiting waiting index)
    · exact ⟨_, State.loseSeat_levelMet (State.clearLost_offered (State.floorState_of_offered entry offered)),
        State.freed_of_endOffer entry offered index chan state .lost .unreachable false⟩
    · have seat := State.chanOf_seat chan
      obtain ⟨opening, opened, held, closing⟩ := State.chanState_of_floorState chan
      refine ⟨fun floor => ?_, fun floor => ?_, fun floor => ?_, fun floor => ?_⟩
      · exact ⟨_, State.loseSeat_levelMet (State.clearLost_frees chan (.inl floor)), State.freed_of_opening .unreachable (opening floor) seat⟩
      · exact ⟨_, State.loseSeat_levelMet (State.clearLost_frees chan (.inr (.inl floor))), State.freed_of_opened .unreachable (opened floor) seat⟩
      · exact ⟨_, State.loseSeat_levelMet (State.clearLost_frees chan (.inr (.inr floor))), State.freed_of_held .unreachable (held floor) seat⟩
      · exact ⟨_, State.loseSeat_levelMet (State.clearLost_closing chan floor), State.endClose_closeEndOf (closing floor) seat⟩
    · exact State.loseSeat_levelMet (State.clearLost_succeeding succeeding successor)

end Sys2Proof.Proofs
end

section
/-! PROOF. The seating records (O46): what each writes, what the clearing of barred seats comes to, and that nothing else of a seat changes. -/

namespace Sys2Proof.Machine

/-! ### What a clearing can do to the seats (R4)

Clearing seats, and the rise or fall of the hold level after it, adds no member to the hold set, makes no seat the holder, and changes of a seat's
record only what is counted of its talking. -/

/-- `u` has no member and no holder that `s` has not, and of each seat's record only the grants and the speaking total may differ. -/
def State.sheds (s u : State) : Prop :=
  (∀ x ∈ u.far.holdSet, x ∈ s.far.holdSet) ∧ (∀ x, u.far.holder = some x → s.far.holder = some x)
    ∧ ∀ x, u.seatRec x = { s.seatRec x with grants := (u.seatRec x).grants, speakingTotal := (u.seatRec x).speakingTotal }

theorem State.sheds_of_eq {s u : State} (holdSet : u.far.holdSet = s.far.holdSet) (holder : u.far.holder = s.far.holder) (stb : u.stb = s.stb) :
    s.sheds u :=
  ⟨fun _ h => holdSet ▸ h, fun _ h => holder ▸ h, fun x => by rw [show u.seatRec x = s.seatRec x by rw [State.seatRec, stb]; rfl]⟩

theorem State.sheds_refl (s : State) : s.sheds s := State.sheds_of_eq rfl rfl rfl

theorem State.sheds.trans {a b c : State} (h : a.sheds b) (h' : b.sheds c) : a.sheds c := by
  obtain ⟨members, holder, record⟩ := h
  obtain ⟨members', holder', record'⟩ := h'
  refine ⟨fun x hx => members x (members' x hx), fun x hx => holder x (holder' x hx), fun x => (record' x).trans ?_⟩
  rw [record x]

theorem State.sheds_ite {P : Prop} [Decidable P] {s a b : State} (ha : s.sheds a) (hb : s.sheds b) : s.sheds (if P then a else b) := by
  split <;> assumption

theorem State.sheds_foldl {α : Type} {f : State → α → State} (hf : ∀ (s : State) x, s.sheds (f s x)) (l : List α) (s : State) : s.sheds (l.foldl f s) := by
  induction l generalizing s with
  | nil => exact s.sheds_refl
  | cons x l ih => exact (hf s x).trans (ih _)

theorem State.notify_sheds (s : State) (n : Notice) : s.sheds (s.notify n) := State.sheds_of_eq (by simp) (by simp) (by simp)

theorem State.place_sheds (s : State) (x : Seat) (cmd : Cmd) : s.sheds (s.place x cmd) := State.sheds_of_eq (by simp) (by simp) (by simp)

theorem State.notifyChan_sheds (s : State) (c : Fin 12) (n : Seat → Notice) : s.sheds (s.notifyChan c n) :=
  State.sheds_of_eq (by simp) (by simp) (by simp)

/-- A change of what is counted of a seat's talking. -/
theorem State.modSeat_sheds (s : State) (x : Seat) (f : SeatRec → SeatRec)
    (h : ∀ r, f r = { r with grants := (f r).grants, speakingTotal := (f r).speakingTotal }) : s.sheds (s.modSeat x f) := by
  refine ⟨fun _ h => h, fun _ h => h, fun y => ?_⟩
  by_cases same : seatIndex x = seatIndex y
  · have changed : (s.modSeat x f).seatRec y = f (s.seatRec y) := by simp [State.modSeat, State.seatRec, same]
    rw [changed]
    exact h _
  · have kept : (s.modSeat x f).seatRec y = s.seatRec y := vget_vset_other _ _ _ _ same
    rw [kept]

theorem State.addClock_sheds (s : State) (c : Fin 12) : s.sheds (s.addClock c) := by
  unfold State.addClock
  split
  · exact s.modSeat_sheds _ _ fun _ => rfl
  · exact s.sheds_refl

theorem State.countGrant_sheds (s : State) (c : Fin 12) : s.sheds (s.countGrant c) := by
  unfold State.countGrant
  split
  · exact s.modSeat_sheds _ _ fun _ => rfl
  · exact s.sheds_refl

theorem State.modChan_sheds (s : State) (c : Fin 12) (f : Channel → Channel) : s.sheds (s.modChan c f) := State.sheds_of_eq rfl rfl rfl

theorem State.abortWindow_sheds (s : State) (c : Fin 12) : s.sheds (s.abortWindow c) := State.sheds_of_eq rfl rfl rfl

theorem State.startWindow_sheds (s : State) (c : Fin 12) : s.sheds (s.startWindow c) :=
  State.sheds_ite (State.sheds_of_eq rfl rfl rfl) s.sheds_refl

theorem State.trigger_sheds (s : State) : s.sheds s.trigger := State.sheds_of_eq rfl rfl rfl

theorem State.clearChan_sheds (s : State) (c : Fin 12) : s.sheds (s.clearChan c) := State.sheds_of_eq rfl rfl rfl

/-- A channel told closed and cleared. -/
theorem State.notifyClose_clear_sheds (s : State) (c : Fin 12) (cause : CloseCause) : s.sheds ((s.notifyClose c cause).clearChan c).trigger :=
  ((s.notifyChan_sheds c _).trans (State.clearChan_sheds _ _)).trans (State.trigger_sheds _)

theorem State.freeChannel_sheds (s : State) (c : Fin 12) (cause : CloseCause) : s.sheds (s.freeChannel c cause) := by
  unfold State.freeChannel
  split
  case h_1 => exact s.sheds_refl
  case h_2 => exact ((s.addClock_sheds c).trans (State.abortWindow_sheds _ _)).trans (State.notifyClose_clear_sheds _ _ _)
  case h_3 => exact (s.addClock_sheds c).trans (State.notifyClose_clear_sheds _ _ _)
  all_goals exact s.notifyClose_clear_sheds _ _

theorem State.listRemove_sheds (s : State) (x : Seat) (cause : RemovalCause) : s.sheds (s.listRemove x cause) := by
  unfold State.listRemove
  split
  · refine State.sheds.trans ?_ (State.sheds_ite (State.place_sheds _ _ _) (State.sheds_refl _))
    exact (State.sheds_of_eq rfl rfl rfl).trans (State.notify_sheds _ _)
  · exact s.sheds_refl

theorem State.endOffer_sheds (s : State) (x : Seat) (removal : RemovalCause) (cause : CloseCause) (withdraw : Bool) :
    s.sheds (s.endOffer x removal cause withdraw) := by
  have before := (s.listRemove_sheds x removal).trans (State.sheds_ite (P := withdraw = true) (State.place_sheds _ x .withdraw) (State.sheds_refl _))
  unfold State.endOffer
  dsimp only
  split
  · exact before.trans (State.freeChannel_sheds _ _ _)
  · exact before

theorem State.enterClosing_sheds (s : State) (c : Fin 12) (cause : CloseCause) : s.sheds (s.enterClosing c cause) := by
  unfold State.enterClosing
  dsimp only
  split
  · exact (s.modChan_sheds c _).trans (State.place_sheds _ _ _)
  · exact s.modChan_sheds c _

theorem State.closeRequest_sheds (s : State) (c : Fin 12) (cause : CloseCause) : s.sheds (s.closeRequest c cause) := by
  unfold State.closeRequest
  split
  · exact s.sheds_refl
  · exact s.sheds_refl
  · split
    · exact s.endOffer_sheds _ _ _ _
    · exact s.freeChannel_sheds _ _
  · split
    · exact State.sheds_ite ((s.place_sheds _ _).trans (State.freeChannel_sheds _ _ _)) (s.enterClosing_sheds _ _)
    · exact s.enterClosing_sheds _ _
  · exact ((s.enterClosing_sheds _ _).trans (State.abortWindow_sheds _ _)).trans (State.addClock_sheds _ _)
  · exact (s.enterClosing_sheds _ _).trans (State.addClock_sheds _ _)

theorem State.dropSuccession_sheds (s : State) (x : Seat) : s.sheds (s.dropSuccession x) := by
  unfold State.dropSuccession
  split
  · exact s.modChan_sheds _ _
  · exact s.sheds_refl

theorem State.leaveHold_sheds (s : State) (x : Seat) : s.sheds (s.leaveHold x) := by
  refine State.sheds_ite (State.sheds.trans ?_ (State.notify_sheds _ _)) s.sheds_refl
  exact ⟨fun _ h => List.mem_of_mem_filter h, fun _ h => h, fun _ => rfl⟩

theorem State.clearHolder_sheds (s : State) (x : Seat) : s.sheds (s.clearHolder x) := by
  refine State.sheds_ite (State.sheds.trans (State.sheds.trans ?_ (State.notify_sheds _ _)) (State.place_sheds _ _ _)) s.sheds_refl
  exact ⟨fun _ h => h, fun _ h => absurd h (Option.some_ne_none _).symm, fun _ => rfl⟩

theorem State.clearChair_sheds (s : State) (x : Seat) : s.sheds (s.clearChair x) := (s.leaveHold_sheds x).trans (State.clearHolder_sheds _ x)

theorem State.clearBarred_sheds (s : State) (x : Seat) : s.sheds (s.clearBarred x) := by
  unfold State.clearBarred
  refine State.sheds.trans ?_ (State.clearChair_sheds _ x)
  split
  case h_2 => exact s.listRemove_sheds _ _
  case h_3 => exact s.endOffer_sheds _ _ _ _
  case h_4 => exact s.closeRequest_sheds _ _
  case h_5 => exact s.closeRequest_sheds _ _
  case h_6 => exact s.closeRequest_sheds _ _
  case h_11 => exact s.dropSuccession_sheds _
  all_goals exact s.sheds_refl

theorem State.applyEffect_sheds (s : State) (e : FloorEffect × Seat) : s.sheds (s.applyEffect e) := by
  unfold State.applyEffect
  split
  · exact s.sheds_refl
  · exact s.clearBarred_sheds _
  · exact s.clearChair_sheds _

/-! ### The rise and the fall of the hold level -/

theorem State.holdChannel_sheds (s : State) (c : Fin 12) : s.sheds (s.holdChannel c) := by
  unfold State.holdChannel
  refine State.sheds.trans (State.sheds.trans ?_ (State.abortWindow_sheds _ _)) (State.notifyChan_sheds _ _ _)
  split
  · exact (s.modChan_sheds c _).trans (State.place_sheds _ _ _)
  · exact s.modChan_sheds c _

theorem State.riseAt_sheds (s : State) (c : Fin 12) : s.sheds (s.riseAt c) := by
  refine State.sheds_ite ?_ s.sheds_refl
  split
  · split
    · exact s.holdChannel_sheds _
    · exact s.closeRequest_sheds _ _
  · split
    · exact State.sheds_ite (s.place_sheds _ _) s.sheds_refl
    · exact s.sheds_refl
  all_goals exact s.sheds_refl

theorem State.resume_sheds (s : State) (c : Fin 12) : s.sheds (s.resume c) := by
  have resumed := ((s.modChan_sheds c fun ch => { ch with state := .opened, reachedOpen := some true }).trans
    (State.startWindow_sheds _ c)).trans (State.notifyChan_sheds _ c (.chResumed c))
  exact State.sheds_ite (resumed.trans (State.countGrant_sheds _ _)) resumed

theorem State.fallAt_sheds (s : State) (c : Fin 12) : s.sheds (s.fallAt c) := by
  unfold State.fallAt
  split
  · rename_i x _ _
    refine State.sheds_ite s.sheds_refl ?_
    have placed : s.sheds (s.placeReport x .unmute).1 := s.place_sheds x .unmute
    exact State.sheds_ite (placed.trans (State.resume_sheds _ _)) placed
  · exact s.sheds_refl

theorem State.levelChanged_sheds (s : State) : s.sheds s.levelChanged :=
  State.sheds_ite s.sheds_refl ((State.sheds_of_eq rfl rfl rfl).trans (State.notify_sheds _ _))

theorem State.rise_sheds (s : State) : s.sheds s.rise := State.sheds_foldl State.riseAt_sheds _ _

theorem State.fall_sheds (s : State) : s.sheds s.fall := (State.sheds_foldl State.fallAt_sheds allChans s).trans (State.trigger_sheds _)

theorem State.holdChanged_sheds (s : State) (before : Fin 8) : s.sheds (s.holdChanged before) :=
  State.sheds_ite s.rise_sheds (State.sheds_ite s.fall_sheds s.sheds_refl)

/-! ### The effects of a seating record, in order (R4, R12, R19, R117) -/

theorem State.clearBarred_eq_clearChair (s : State) (x : Seat) : ∃ u : State, s.clearBarred x = u.clearChair x := ⟨_, rfl⟩

theorem State.clearChair_eq (s : State) (x : Seat) : s.clearChair x = (s.memberLeft x).holderLeft x := by
  simp only [State.clearChair, State.leaveHold_eq, State.clearHolder_eq]

/-- Neither a member of the hold set nor the holder of the list. -/
def State.holdsNothing (s : State) (x : Seat) : Prop := x ∉ s.far.holdSet ∧ s.far.holder ≠ some x

theorem State.sheds.holdsNothing {s u : State} {x : Seat} (h : s.sheds u) (hx : s.holdsNothing x) : u.holdsNothing x := by
  obtain ⟨members, holder, -⟩ := h
  exact ⟨fun member => hx.1 (members x member), fun holds => hx.2 (holder x holds)⟩

theorem State.memberLeft_not_mem (s : State) (x : Seat) : x ∉ (s.memberLeft x).far.holdSet := by
  by_cases member : x ∈ s.far.holdSet
  · rw [State.memberLeft_far member]
    simp
  · rwa [State.memberLeft_of_not_mem member]

theorem State.clearChair_holdsNothing (s : State) (x : Seat) : (s.clearChair x).holdsNothing x := by
  rw [State.clearChair_eq, State.holdsNothing, State.holderLeft_far]
  refine ⟨s.memberLeft_not_mem x, ?_⟩
  dsimp only
  split
  · exact (Option.some_ne_none x).symm
  · assumption

theorem State.clearBarred_holdsNothing (s : State) (x : Seat) : (s.clearBarred x).holdsNothing x := by
  obtain ⟨u, last⟩ := s.clearBarred_eq_clearChair x
  rw [last]
  exact u.clearChair_holdsNothing x

/-- A seat barred, or a chair that becomes a delegate, keeps no part in the hold set and list control. -/
theorem State.applyEffect_holdsNothing (s : State) {e : FloorEffect × Seat} (h : e.1 ≠ .none) : (s.applyEffect e).holdsNothing e.2 := by
  obtain ⟨effect, x⟩ := e
  cases effect with
  | none => exact absurd rfl h
  | barred => exact s.clearBarred_holdsNothing x
  | chairToDelegate => exact s.clearChair_holdsNothing x

theorem State.afterEffects_sheds (s : State) (before : Fin 8) : s.sheds (s.levelChanged.holdChanged before) :=
  s.levelChanged_sheds.trans (State.holdChanged_sheds _ _)

theorem State.applyEffects_sheds (s : State) (effects : List (FloorEffect × Seat)) : s.sheds (s.applyEffects effects) :=
  (State.sheds_foldl State.applyEffect_sheds effects s).trans (State.afterEffects_sheds _ _)

theorem State.applyEffects_holdsNothing (s : State) {effects : List (FloorEffect × Seat)} {e : FloorEffect × Seat} (mem : e ∈ effects)
    (h : e.1 ≠ .none) : (s.applyEffects effects).holdsNothing e.2 := by
  obtain ⟨before, after, rfl⟩ := List.append_of_mem mem
  rw [State.applyEffects, List.foldl_append, List.foldl_cons]
  generalize before.foldl State.applyEffect s = a
  exact (State.afterEffects_sheds _ _).holdsNothing
    ((State.sheds_foldl State.applyEffect_sheds after _).holdsNothing (a.applyEffect_holdsNothing h))

/-- What the effects on the seats of a list come to: each seat's clearing in order, a member's changed level told, and one rise or fall. -/
theorem State.applyEffects_levelMet (s : State) {effect : Seat → FloorEffect} {clear : State → Seat → State}
    (h : ∀ a x, State.applyEffect a (effect x, x) = clear a x) (seats : List Seat) :
    State.levelMet s.far.holdLevel (seats.foldl clear s).levelRead (s.applyEffects (seats.map fun x => (effect x, x))) := by
  rw [State.applyEffects, List.foldl_map, State.levelChanged_eq, funext fun a => funext (h a)]
  exact State.holdChanged_levelMet _ _

/-- Classes, zones and settings are no part of the effects. -/
theorem State.applyEffects_frame (s : State) (effects : List (FloorEffect × Seat)) : (s.applyEffects effects).stb.classes = s.stb.classes
    ∧ (s.applyEffects effects).stb.zones = s.stb.zones ∧ (s.applyEffects effects).mge.settings = s.mge.settings := by
  obtain ⟨-, -, -, -, -, -, classes, zones, settings, -⟩ := (s.applyEffects_moves (o := false) effects).frame
  exact ⟨classes, zones, settings⟩

/-! ### The seats of a range (R4, R18) -/

/-- The seats stand in ascending seat-code order (R4). -/
theorem allSeats_ascending : allSeats.Pairwise fun x y => seatCode x < seatCode y := by
  refine List.pairwise_map.mpr ((List.pairwise_lt_finRange 480).imp fun {i j} h => ?_)
  simp only [seatCode, seatAt, posNumber]
  omega

theorem mem_allSeats (x : Seat) : x ∈ allSeats := List.mem_map.mpr ⟨seatIndex x, List.mem_finRange _, seatAt_seatIndex x⟩

theorem loadSeat_mem_range (p : LoadSeatParams) (x : Seat) : x ∈ p.range ↔ p.first.toNat ≤ seatCode x ∧ seatCode x ≤ p.last.toNat := by
  simp [LoadSeatParams.range, seatsOfRange, mem_allSeats]

theorem loadSeat_range_nodup (p : LoadSeatParams) : p.range.Nodup := by
  refine List.Nodup.filter _ (allSeats_ascending.imp fun {x y} h => ?_)
  rintro rfl
  exact absurd h (lt_irrefl _)

/-- The records after LOAD_SEAT has gone over some seats. -/
theorem loadSeat_foldl_seat (p : LoadSeatParams) (x : Seat) {l : List Seat} (nodup : l.Nodup) (v : Vector SeatRec 480) :
    vget (l.foldl (fun v y => vset v (seatIndex y) (p.apply (vget v (seatIndex y)))) v) (seatIndex x)
      = if x ∈ l then p.apply (vget v (seatIndex x)) else vget v (seatIndex x) := by
  induction l generalizing v with
  | nil => rfl
  | cons y l ih =>
    obtain ⟨fresh, rest⟩ := List.nodup_cons.mp nodup
    rw [List.foldl_cons, ih rest]
    by_cases same : x = y
    · subst same
      simp [fresh]
    · have other : seatIndex y ≠ seatIndex x := fun e => same (seatIndex_inj e).symm
      simp [same, other]

/-- LOAD_SEAT writes the seats of its range (R18). -/
theorem loadSeat_stbAfter_seat (p : LoadSeatParams) (s : State) (x : Seat) : (s.setStb (p.stbAfter s.stb)).seatRec x
    = if p.first.toNat ≤ seatCode x ∧ seatCode x ≤ p.last.toNat then p.apply (s.seatRec x) else s.seatRec x := by
  simp only [← loadSeat_mem_range]
  exact loadSeat_foldl_seat p x (loadSeat_range_nodup p) s.stb.seats

/-! ### Clearing a barred seat, by its floor state (R4) -/

section
variable {s : State} {x : Seat} {c : Fin 12}

theorem State.clearBarred_stays (floor : s.floorState x = .idle ∨ s.floorState x = .closing) :
    s.clearBarred x = (s.memberLeft x).holderLeft x := by
  rcases floor with floor | floor <;> simp only [State.clearBarred, floor, State.leaveHold_eq, State.clearHolder_eq]

theorem State.clearBarred_waiting {i : Nat} (waiting : s.floorState x = .waiting) (index : s.listIndex x = some i) : s.clearBarred x
    = ((State.notify (.listRemove x .disabled i (s.far.list.length - 1))
        { s with far := { s.far with list := s.far.list.eraseIdx i } }).memberLeft x).holderLeft x := by
  rw [← State.listRemove_waiting waiting index (by decide)]
  simp only [State.clearBarred, waiting, State.leaveHold_eq, State.clearHolder_eq]

theorem State.clearBarred_offered (offered : s.floorState x = .offered) :
    s.clearBarred x = ((s.endOffer x .disabled .disabled true).memberLeft x).holderLeft x := by
  simp only [State.clearBarred, offered, State.leaveHold_eq, State.clearHolder_eq]

/-- An OPENING, OPEN or HELD channel gets a close request. -/
theorem State.clearBarred_closes (chan : s.chanOf x = some c)
    (state : s.floorState x = .opening ∨ s.floorState x = .opened ∨ s.floorState x = .held) :
    s.clearBarred x = ((s.closeRequest c .disabled).memberLeft x).holderLeft x := by
  rcases state with state | state | state <;> simp only [State.clearBarred, state, chan, State.leaveHold_eq, State.clearHolder_eq]

theorem State.clearBarred_succeeding (succeeding : s.floorState x = .succeeding) (successor : s.successorChan x = some c) : s.clearBarred x
    = (State.memberLeft { s with far := { s.far with channels := vset s.far.channels c { s.chan c with successor := none } } } x).holderLeft x := by
  rw [← State.dropSuccession_eq successor]
  simp only [State.clearBarred, succeeding, State.leaveHold_eq, State.clearHolder_eq]

end

/-! ### LOAD_SEAT (R18, R19) -/

theorem chairLimitFails_iff (old new : Stb) : chairLimitFails old new = true ↔ 8 < new.chairCount ∧ old.chairCount < new.chairCount := by
  simp only [chairLimitFails, Bool.and_eq_true, decide_eq_true_eq]
  exact Iff.rfl

theorem chairLimitFails_false {old new : Stb} (h : new.chairCount ≤ 8 ∨ new.chairCount ≤ old.chairCount) : chairLimitFails old new = false :=
  Bool.eq_false_iff.mpr fun fails => by
    obtain ⟨above, more⟩ := (chairLimitFails_iff old new).mp fails
    omega

theorem State.loadMoves_iff (s : State) (p : LoadSeatParams) :
    s.loadMoves p = true ↔ ∃ x ∈ p.range, (p.apply (s.seatRec x)).cls ≠ (s.seatRec x).cls := by
  simp [State.loadMoves]

/-- A LOAD_SEAT past its field checks. -/
theorem loadSeatBody_checked {p : LoadSeatParams} (fields : p.fieldsOk = true) (seats : p.seatsOk = true) (some_field : p.empty = false) (s : State) :
    loadSeatBody p s = if s.mge.sittingOpen && s.loadMoves p then Answer.refuse .locked s
      else if chairLimitFails s.stb (p.stbAfter s.stb) then Answer.refuse .full s
      else ⟨s.loadSeats p, clampStatus p.clamped, u16 p.range.length⟩ := by
  simp [loadSeatBody, fields, seats, some_field]

/-- What LOAD_SEAT does to a seat on the floor, by its enabled field and its kinds before and after (R19). -/
theorem State.applyEffect_load (s : State) (p : LoadSeatParams) (a : State) (x : Seat) : a.applyEffect (s.loadEffect p x, x)
    = (let kind := fun r : SeatRec => (vget s.stb.classes r.cls).kind
      let r := s.seatRec x
      let n := p.apply r
      if (r.enabled = true ∧ n.enabled = false) ∨ (n.cls ≠ r.cls ∧ kind n = .listener) then a.clearBarred x
      else if n.cls ≠ r.cls ∧ kind r = .chair ∧ kind n = .delegate then (a.memberLeft x).holderLeft x
      else a) := by
  simp only [State.loadEffect, Bool.or_eq_true, Bool.and_eq_true, Bool.not_eq_true', decide_eq_true_eq, and_assoc]
  split
  · rfl
  · split
    · exact a.clearChair_eq x
    · rfl

theorem State.loadEffect_disabled {s : State} {p : LoadSeatParams} {x : Seat} (enabled : (s.seatRec x).enabled = true)
    (disabled : (p.apply (s.seatRec x)).enabled = false) : s.loadEffect p x = .barred := by
  simp [State.loadEffect, enabled, disabled]

/-- The state a LOAD_SEAT leaves, but for the promotion it may owe: the seats of its range written, then their effects on the floor. -/
def State.seatsLoaded (s : State) (p : LoadSeatParams) : State :=
  (s.setStb (p.stbAfter s.stb)).applyEffects (p.range.map fun x => (s.loadEffect p x, x))

theorem State.loadSeats_eq (s : State) (p : LoadSeatParams) : s.loadSeats p = (s.seatsLoaded p).settle := rfl

/-- A LOAD_SEAT that neither the sitting lock nor the chair limit refuses. -/
theorem loadSeatBody_applied {s : State} {p : LoadSeatParams} (fields : p.fieldsOk = true) (seats : p.seatsOk = true) (some_field : p.empty = false)
    (allowed : s.mge.sittingOpen = false ∨ ∀ x ∈ p.range, (p.apply (s.seatRec x)).cls = (s.seatRec x).cls)
    (room : (p.stbAfter s.stb).chairCount ≤ 8 ∨ (p.stbAfter s.stb).chairCount ≤ s.stb.chairCount) :
    loadSeatBody p s = ⟨(s.seatsLoaded p).settle, clampStatus p.clamped, u16 p.range.length⟩ := by
  have free : (s.mge.sittingOpen && s.loadMoves p) = false := by
    refine Bool.and_eq_false_imp.mpr fun locked => Bool.eq_false_iff.mpr fun moves => ?_
    obtain ⟨x, mem, moved⟩ := (s.loadMoves_iff p).mp moves
    rcases allowed with unlocked | stays
    · exact absurd (unlocked.symm.trans locked) Bool.false_ne_true
    · exact moved (stays x mem)
  rw [loadSeatBody_checked fields seats some_field, free, chairLimitFails_false room]
  rfl

theorem State.seatsLoaded_frame (s : State) (p : LoadSeatParams) : (s.seatsLoaded p).stb.classes = s.stb.classes
    ∧ (s.seatsLoaded p).stb.zones = s.stb.zones ∧ (s.seatsLoaded p).mge.settings = s.mge.settings := by
  unfold State.seatsLoaded
  exact State.applyEffects_frame _ _

theorem State.seatsLoaded_seatRec (s : State) (p : LoadSeatParams) (x : Seat) :
    let r := if p.first.toNat ≤ seatCode x ∧ seatCode x ≤ p.last.toNat then p.apply (s.seatRec x) else s.seatRec x
    (s.seatsLoaded p).seatRec x
      = { r with grants := ((s.seatsLoaded p).seatRec x).grants, speakingTotal := ((s.seatsLoaded p).seatRec x).speakingTotal } := by
  intro r
  have written : (s.setStb (p.stbAfter s.stb)).seatRec x = r := loadSeat_stbAfter_seat p s x
  obtain ⟨-, -, record⟩ := State.applyEffects_sheds (s.setStb (p.stbAfter s.stb)) (p.range.map fun x => (s.loadEffect p x, x))
  exact (record x).trans (by rw [written]; rfl)

theorem State.seatsLoaded_holdsNothing {s : State} {p : LoadSeatParams} {x : Seat} (mem : x ∈ p.range) (enabled : (s.seatRec x).enabled = true)
    (disabled : (p.apply (s.seatRec x)).enabled = false) : (s.seatsLoaded p).holdsNothing x := by
  refine State.applyEffects_holdsNothing _ (List.mem_map_of_mem (f := fun y => (s.loadEffect p y, y)) mem) ?_
  simp [State.loadEffect_disabled enabled disabled]

/-- The floor after LOAD_SEAT: its seats cleared in order by `applyEffect_load`, then the level met. -/
theorem State.seatsLoaded_levelMet (s : State) (p : LoadSeatParams) {clear : State → Seat → State}
    (h : ∀ a x, State.applyEffect a (s.loadEffect p x, x) = clear a x) :
    State.levelMet s.far.holdLevel (p.range.foldl clear (s.setStb (p.stbAfter s.stb))).levelRead (s.seatsLoaded p) :=
  State.applyEffects_levelMet (s.setStb (p.stbAfter s.stb)) h p.range

/-! ### SET_CLASS (R11, R12) -/

theorem classLocked_iff (old new : ClassRec) : classLocked old new = true ↔ new.kind ≠ old.kind ∨ new.level ≠ old.level ∨ new.group ≠ old.group := by
  simp only [classLocked, Bool.or_eq_true, decide_eq_true_eq, or_assoc, ne_comm (a := old.kind), ne_comm (a := old.level), ne_comm (a := old.group)]

theorem setClassBody_badField {p : SetClassParams} (h : 7 < p.cls.toNat ∨ p.codesOk = false) (s : State) :
    setClassBody p s = Answer.refuse .badField s := by
  unfold setClassBody
  split
  · rfl
  · rename_i n named
    rcases h with beyond | bad
    · rw [finOfByte_none (n := 8) beyond] at named
      exact nomatch named
    · simp [bad]

/-- A SET_CLASS past its field checks. -/
theorem setClassBody_checked {p : SetClassParams} {n : Fin 8} (named : p.cls.toNat = n.val) (codes : p.codesOk = true) (s : State) :
    setClassBody p s = if s.mge.sittingOpen && classLocked (vget s.stb.classes n) (p.apply (vget s.stb.classes n)) then Answer.refuse .locked s
      else if chairLimitFails s.stb (s.stb.setClass n (p.apply (vget s.stb.classes n))) then Answer.refuse .full s
      else ⟨s.setClassRec n (p.apply (vget s.stb.classes n)), clampStatus p.clamped, (p.apply (vget s.stb.classes n)).fields⟩ := by
  simp [setClassBody, finOfByte_some named, codes]

/-- What SET_CLASS does to a seat of its class on the floor, by the kinds before and after (R12). -/
theorem State.applyEffect_kind (old new : ClassKind) (a : State) (x : Seat) : a.applyEffect (kindEffect old new, x)
    = if old ≠ .listener ∧ new = .listener then a.clearBarred x
      else if old = .chair ∧ new = .delegate then (a.memberLeft x).holderLeft x
      else a := by
  rw [← State.clearChair_eq]
  cases old <;> cases new <;> rfl

theorem kindEffect_of_chair {new : ClassKind} (h : new ≠ .chair) : kindEffect .chair new ≠ .none := by
  cases new <;> simp_all [kindEffect]

/-- The state a SET_CLASS leaves, but for the promotion it may owe: the class written, then the effects on its seats. -/
def State.classSet (s : State) (n : Fin 8) (r : ClassRec) : State :=
  (s.setStb (s.stb.setClass n r)).applyEffects
    ((allSeats.filter fun x => (s.seatRec x).cls = n).map fun x => (kindEffect (vget s.stb.classes n).kind r.kind, x))

theorem State.setClassRec_eq (s : State) (n : Fin 8) (r : ClassRec) : s.setClassRec n r = (s.classSet n r).settle := rfl

/-- A SET_CLASS that neither the sitting lock nor the chair limit refuses. -/
theorem setClassBody_applied {s : State} {p : SetClassParams} {n : Fin 8} {new : ClassRec} (named : p.cls.toNat = n.val) (codes : p.codesOk = true)
    (after : p.apply (vget s.stb.classes n) = new)
    (allowed : s.mge.sittingOpen = false ∨ (new.kind = (vget s.stb.classes n).kind ∧ new.level = (vget s.stb.classes n).level
      ∧ new.group = (vget s.stb.classes n).group))
    (room : (s.stb.setClass n new).chairCount ≤ 8 ∨ (s.stb.setClass n new).chairCount ≤ s.stb.chairCount) :
    setClassBody p s = ⟨(s.classSet n new).settle, clampStatus p.clamped, new.fields⟩ := by
  have free : (s.mge.sittingOpen && classLocked (vget s.stb.classes n) new) = false := by
    refine Bool.and_eq_false_imp.mpr fun locked => Bool.eq_false_iff.mpr fun changes => ?_
    rcases allowed with unlocked | ⟨kind, level, group⟩
    · exact absurd (unlocked.symm.trans locked) Bool.false_ne_true
    · rcases (classLocked_iff _ _).mp changes with h | h | h
      · exact h kind
      · exact h level
      · exact h group
  rw [setClassBody_checked named codes, after, free, chairLimitFails_false room]
  rfl

theorem State.classSet_frame (s : State) (n : Fin 8) (r : ClassRec) : (s.classSet n r).stb.classes = vset s.stb.classes n r
    ∧ (s.classSet n r).stb.zones = s.stb.zones ∧ (s.classSet n r).mge.settings = s.mge.settings := by
  unfold State.classSet
  exact State.applyEffects_frame _ _

theorem State.classSet_seatRec (s : State) (n : Fin 8) (r : ClassRec) (x : Seat) : (s.classSet n r).seatRec x = { s.seatRec x with
    grants := ((s.classSet n r).seatRec x).grants, speakingTotal := ((s.classSet n r).seatRec x).speakingTotal } := by
  obtain ⟨-, -, record⟩ := State.applyEffects_sheds (s.setStb (s.stb.setClass n r))
    ((allSeats.filter fun x => (s.seatRec x).cls = n).map fun x => (kindEffect (vget s.stb.classes n).kind r.kind, x))
  exact record x

theorem State.classSet_holdsNothing {s : State} {n : Fin 8} {r : ClassRec} {x : Seat} (cls : (s.seatRec x).cls = n)
    (chair : (vget s.stb.classes n).kind = .chair) (other : r.kind ≠ .chair) : (s.classSet n r).holdsNothing x := by
  have mem : x ∈ allSeats.filter fun y => (s.seatRec y).cls = n := List.mem_filter.mpr ⟨mem_allSeats x, decide_eq_true cls⟩
  refine State.applyEffects_holdsNothing _ (List.mem_map_of_mem (f := fun y => (kindEffect (vget s.stb.classes n).kind r.kind, y)) mem) ?_
  rw [chair]
  exact kindEffect_of_chair other

/-- The floor after SET_CLASS: the seats of the class cleared in order by `applyEffect_kind`, then the level met. -/
theorem State.classSet_levelMet (s : State) (n : Fin 8) (r : ClassRec) {clear : State → Seat → State}
    (h : ∀ a x, State.applyEffect a (kindEffect (vget s.stb.classes n).kind r.kind, x) = clear a x) : State.levelMet s.far.holdLevel
      ((allSeats.filter fun x => (s.seatRec x).cls = n).foldl clear (s.setStb (s.stb.setClass n r))).levelRead (s.classSet n r) :=
  State.applyEffects_levelMet (s.setStb (s.stb.setClass n r)) h _

/-! ### SET_ZONE (R16) -/

/-- A yes/no field that holds a defined code. -/
theorem codeOr_bool {o : Option Byte} (ok : codeOk boolOfCode o = true) (held : Bool) :
    codeOr boolOfCode o held = (o.map fun b => b == 1).getD held := by
  cases o with
  | none => rfl
  | some b =>
    simp only [codeOk, boolOfCode] at ok
    simp only [codeOr, Option.bind_some, Option.map_some, Option.getD_some, boolOfCode]
    by_cases zero : b = 0
    · subst zero
      rfl
    · by_cases one : b = 1
      · subst one
        rfl
      · rw [if_neg zero, if_neg one] at ok
        exact nomatch ok

theorem clampNat_zero (hi n : Nat) : clampNat 0 hi n = min hi n := by
  simp only [clampNat]
  split <;> [omega; split <;> omega]

/-- The window SET_ZONE leaves. -/
theorem setZone_apply {p : SetZoneParams} (fields : p.fieldsOk = true) (z : ZoneRec) : p.apply z = ⟨(p.enabled.map fun b => b == 1).getD z.enabled,
    (p.base.map BitVec.toNat).getD z.base, (p.limit.map BitVec.toNat).getD z.limit, (p.cap.map fun b => min 12 b.toNat).getD z.cap⟩ := by
  have ok : codeOk boolOfCode p.enabled = true := by
    simp only [SetZoneParams.fieldsOk, Bool.and_eq_true] at fields
    exact fields.1.1
  have cap : numOr 0 12 (byteNum p.cap) z.cap = (p.cap.map fun b => min 12 b.toNat).getD z.cap := by
    cases p.cap <;> simp [numOr, byteNum, clampNat_zero]
  rw [SetZoneParams.apply, codeOr_bool ok, cap]
  rfl

theorem setZone_status (p : SetZoneParams) : clampStatus (numClamped 0 12 (byteNum p.cap)) = if p.cap.any fun b => 12 < b.toNat then .clamped else .ok := by
  cases p.cap <;> simp [clampStatus, numClamped, byteNum, clampNat_zero]

theorem setZoneBody_badField {p : SetZoneParams} (h : 7 < p.zone.toNat ∨ p.fieldsOk = false) (s : State) :
    setZoneBody p s = Answer.refuse .badField s := by
  unfold setZoneBody
  split
  · rfl
  · rename_i n named
    rcases h with beyond | bad
    · rw [finOfByte_none (n := 8) beyond] at named
      exact nomatch named
    · simp [bad]

/-- A SET_ZONE past its field checks. -/
theorem setZoneBody_checked {p : SetZoneParams} {n : Fin 8} (named : p.zone.toNat = n.val) (fields : p.fieldsOk = true) (s : State) :
    setZoneBody p s = if s.mge.sittingOpen && !p.empty then Answer.refuse .locked s
      else ⟨s.setStb (s.stb.setZone n (p.apply (vget s.stb.zones n))), clampStatus (numClamped 0 12 (byteNum p.cap)),
        (p.apply (vget s.stb.zones n)).fields⟩ := by
  simp [setZoneBody, finOfByte_some named, fields]

end Sys2Proof.Machine

namespace Sys2Proof.Proofs

open Sys2Proof.Machine

/-- Settles O46: each body past its checks is an equation of its own, `sheds` says that the clearing writes nothing else of a seat, and the
`clearBarred_` lemmas say what it does by floor state. -/
theorem seatingRecordsWriteWhatTheyName : Obligations.SeatingRecordsWriteWhatTheyName := by
  unfold Obligations.SeatingRecordsWriteWhatTheyName
  refine ⟨fun p s h => ⟨fun bad => ?_, fun fields bad => ?_, fun fields seats nothing => ?_, fun fields seats some_field => ⟨fun locked moves => ?_,
      fun unlocked above more => ?_, fun allowed room => ?_⟩⟩,
    fun p s h => ⟨fun bad => ?_, fun n named codes => ⟨fun locked changes => ?_, fun unlocked above more => ?_, fun allowed room => ?_⟩⟩,
    allSeats_ascending, fun p => ?_, fun s x => ⟨fun floor => ?_, fun i waiting index => ?_, fun e i c entry offered index chan state => ?_,
      fun c chan => ⟨fun opening unsent => ?_, fun state => ?_⟩, fun c succeeding successor => ?_⟩,
    fun p s h => ⟨fun bad => ?_, fun n named fields => ⟨fun locked some_field => ?_, fun allowed => ?_⟩⟩⟩
  · exact congrArg _ (State.runRecord_refuse h 0x01 (by simp [loadSeatBody, bad]))
  · exact congrArg _ (State.runRecord_refuse h 0x01 (by simp [loadSeatBody, fields, bad]))
  · refine congrArg _ (State.runRecord_answer h 0x01 ?_)
    simp only [loadSeatBody, fields, seats, nothing]
    rfl
  · refine congrArg _ (State.runRecord_refuse h 0x01 ?_)
    rw [loadSeatBody_checked fields seats some_field, locked, (s.loadMoves_iff p).mpr moves]
    rfl
  · refine congrArg _ (State.runRecord_refuse h 0x01 ?_)
    rw [loadSeatBody_checked fields seats some_field, unlocked, (chairLimitFails_iff _ _).mpr ⟨above, more⟩]
    rfl
  · have applied := loadSeatBody_applied fields seats some_field allowed room
    obtain ⟨classes, zones, settings⟩ := s.seatsLoaded_frame p
    refine ⟨s.seatsLoaded p, congrArg _ (State.runRecord_answer h 0x01 applied), fun x => ?_, classes, zones, settings,
      fun x mem enabled disabled => State.seatsLoaded_holdsNothing mem enabled disabled, s.seatsLoaded_levelMet p (s.applyEffect_load p)⟩
    intro r
    rw [s.seatsLoaded_seatRec p x]
    exact ⟨rfl, rfl, rfl, rfl, rfl, rfl, rfl⟩
  · exact congrArg _ (State.runRecord_refuse h 0x03 (setClassBody_badField bad s))
  · refine congrArg _ (State.runRecord_refuse h 0x03 ?_)
    rw [setClassBody_checked named codes, locked, (classLocked_iff _ _).mpr changes]
    rfl
  · refine congrArg _ (State.runRecord_refuse h 0x03 ?_)
    have full : chairLimitFails s.stb (s.stb.setClass n (p.apply (vget s.stb.classes n))) = true := (chairLimitFails_iff _ _).mpr ⟨above, more⟩
    rw [setClassBody_checked named codes, unlocked, full]
    rfl
  · have applied := setClassBody_applied named codes rfl allowed room
    obtain ⟨classes, zones, settings⟩ := s.classSet_frame n (p.apply (vget s.stb.classes n))
    refine ⟨s.classSet n (p.apply (vget s.stb.classes n)), congrArg _ (State.runRecord_answer h 0x03 applied), classes, zones, settings, fun x => ?_,
      fun x cls chair other => State.classSet_holdsNothing cls chair other, s.classSet_levelMet n _ (State.applyEffect_kind _ _)⟩
    rw [s.classSet_seatRec n _ x]
    exact ⟨rfl, rfl⟩
  · simp only [LoadSeatParams.range, seatsOfRange, Bool.decide_and]
  · exact State.clearBarred_stays floor
  · exact State.clearBarred_waiting waiting index
  · exact ⟨_, State.clearBarred_offered (State.floorState_of_offered entry offered),
      State.freed_of_endOffer entry offered index chan state .disabled .disabled true⟩
  · obtain ⟨state, -⟩ := State.chanState_of_floorState chan
    exact ⟨_, State.clearBarred_closes chan (.inl opening), State.freed_of_openUnsent .disabled (state opening) (State.chanOf_seat chan) unsent⟩
  · exact ⟨_, State.clearBarred_closes chan (state.imp_left And.left), State.closingOf_floorState .disabled chan state⟩
  · exact State.clearBarred_succeeding succeeding successor
  · exact congrArg _ (State.runRecord_refuse h 0x05 (setZoneBody_badField bad s))
  · refine congrArg _ (State.runRecord_refuse h 0x05 ?_)
    rw [setZoneBody_checked named fields, locked, some_field]
    rfl
  · refine congrArg _ (State.runRecord_answer h 0x05 ?_)
    have open_or_empty : (s.mge.sittingOpen && !p.empty) = false := by rcases allowed with h | h <;> simp [h]
    rw [setZoneBody_checked named fields, open_or_empty, setZone_apply fields, setZone_status]
    rfl

end Sys2Proof.Proofs
end

section
/-! PROOF. The command queues (O20), the downstream frame (O24) and the port at RESET_ENGINE (O7). -/

namespace Sys2Proof.Machine

/-! ### Placing and combining commands (R31, R32) -/

/-- A queue after a command has met the unsent one of its position: the two combined by R32 in place, or both dropped. -/
theorem enqueue_unsent {pos : Fin 120} {e : QEntry} {before after : List QEntry} (cmd : Cmd) (first : ∀ d ∈ before, d.target ≠ some pos)
    (here : e.target = some pos) : (enqueue pos cmd (before ++ e :: after)).1
      = before ++ ((coalesce e.cmd cmd).1.map fun k => (⟨some pos, k⟩ : QEntry)).toList ++ after := by
  induction before with
  | nil =>
    obtain ⟨target, old⟩ := e
    obtain rfl : target = some pos := here
    simp only [List.nil_append, enqueue, if_true]
    split <;> simp_all
  | cons d before ih =>
    have other : d.target ≠ some pos := first d (by simp)
    simp [enqueue, other, ih fun b hb => first b (by simp [hb])]

/-- A queue with one command for each position, split at the unsent command of a position. -/
theorem queue_split {pos : Fin 120} {old : Cmd} {q : List QEntry} (unsent : (q.find? fun e => e.target = some pos).map QEntry.cmd = some old)
    (once : (q.map QEntry.target).Nodup) : ∃ before after, q = before ++ ⟨some pos, old⟩ :: after
      ∧ (∀ d ∈ before, d.target ≠ some pos) ∧ ∀ d ∈ after, d.target ≠ some pos := by
  obtain ⟨e, found, rfl⟩ := Option.map_eq_some_iff.mp unsent
  obtain ⟨here, before, after, rfl, first⟩ := List.find?_eq_some_iff_append.mp found
  simp only [decide_eq_true_eq] at here
  obtain ⟨target, old⟩ := e
  obtain rfl : target = some pos := here
  refine ⟨before, after, rfl, fun d hd => by simpa using first d hd, fun d hd same => ?_⟩
  rw [List.map_append, List.map_cons, List.nodup_append, List.nodup_cons] at once
  exact once.2.1.1 (List.mem_map.mpr ⟨d, hd, same⟩)

/-- A command is discarded where the seat's trunk is not UP or the seat not PRESENT (R31). -/
theorem State.place_discarded {s : State} {x : Seat} (h : (s.tpc x.trunk).link ≠ .up ∨ (s.seatRec x).availability ≠ .present) (cmd : Cmd) :
    s.place x cmd = s := by
  have off : ¬ ((s.tpc x.trunk).link = .up ∧ (s.seatRec x).availability = .present) := fun ⟨up, present⟩ => h.elim (· up) (· present)
  rw [State.place, State.placeReport, if_neg off]

/-- A command that is not discarded is queued on its trunk (R31). -/
theorem State.place_taken {s : State} {x : Seat} (up : (s.tpc x.trunk).link = .up) (present : (s.seatRec x).availability = .present) (cmd : Cmd) :
    s.place x cmd = s.modTpc x.trunk fun p => { p with queue := (enqueue x.pos cmd p.queue).1 } := by
  rw [State.place, State.placeReport, if_pos ⟨up, present⟩]

/-- The unsent commands after a command is taken (R31). -/
theorem State.place_unsent {s : State} {x : Seat} (up : (s.tpc x.trunk).link = .up) (present : (s.seatRec x).availability = .present) (cmd : Cmd)
    (y : Seat) : (s.place x cmd).unsent y = ((if x.trunk = y.trunk then (enqueue x.pos cmd (s.tpc x.trunk).queue).1
      else (s.tpc y.trunk).queue).find? fun e => e.target = some y.pos).map QEntry.cmd := by
  rw [State.unsent, State.place_taken up present, State.modTpc_tpc]
  split
  · rename_i same
    rw [same]
  · rfl

/-- A command that meets an unsent one leaves for its seat what the two combine to, one command for each position, and every other seat's unsent
command (R31, R32). -/
theorem State.place_combined {s : State} {x : Seat} {old : Cmd} (up : (s.tpc x.trunk).link = .up) (present : (s.seatRec x).availability = .present)
    (unsent : s.unsent x = some old) (once : ((s.tpc x.trunk).queue.map QEntry.target).Nodup) (cmd : Cmd) :
    (s.place x cmd).unsent x = (coalesce old cmd).1 ∧ (((s.place x cmd).tpc x.trunk).queue.map QEntry.target).Nodup
      ∧ ∀ y : Seat, y ≠ x → (s.place x cmd).unsent y = s.unsent y := by
  obtain ⟨before, after, queue, first, last⟩ := queue_split unsent once
  have combined := enqueue_unsent (after := after) cmd first (e := ⟨some x.pos, old⟩) rfl
  simp only [State.place_unsent up present]
  rw [State.place_taken up present, State.modTpc_tpc_self]
  simp only [if_true, queue, combined]
  rw [queue] at once
  have noneBefore : (before.find? fun e => e.target = some x.pos) = none := List.find?_eq_none.mpr fun d hd => by simpa using first d hd
  have noneAfter : (after.find? fun e => e.target = some x.pos) = none := List.find?_eq_none.mpr fun d hd => by simpa using last d hd
  refine ⟨?_, ?_, fun y other => ?_⟩
  · cases (coalesce old cmd).1 <;> simp [List.find?_append, noneBefore, noneAfter]
  · refine once.sublist ?_
    cases (coalesce old cmd).1 <;> simp
  · by_cases same : x.trunk = y.trunk
    · have pos : x.pos ≠ y.pos := fun e => other (by cases x; cases y; cases same; cases e; rfl)
      rw [if_pos same, State.unsent, ← same, queue]
      cases (coalesce old cmd).1 <;> simp [List.find?_append, pos]
    · rw [if_neg same]
      rfl

/-! ### The command a frame carries (R33) -/

theorem Cmd.cls_range (cmd : Cmd) : cmd.cls = 1 ∨ cmd.cls = 2 ∨ cmd.cls = 3 := by cases cmd <;> simp [Cmd.cls]

/-- No command of a class waits. -/
theorem queue_no_class {q : List QEntry} {n : Nat} (h : (q.find? fun e => e.cmd.cls = n) = none) : ∀ d ∈ q, d.cmd.cls ≠ n := by
  simpa [List.find?_eq_none] using h

/-- The command taken from the queue is the earliest of the highest class (R33). -/
theorem nextQueued_spec {q : List QEntry} {e : QEntry} (h : nextQueued q = some e) :
    (∀ d ∈ q, e.cmd.cls ≤ d.cmd.cls) ∧ (q.find? fun d => d.cmd.cls = e.cmd.cls) = some e := by
  unfold nextQueued at h
  cases first : q.find? (fun d => d.cmd.cls = 1) with
  | some d =>
    rw [first] at h
    obtain rfl : d = e := Option.some.inj h
    have cls : d.cmd.cls = 1 := by simpa using List.find?_some first
    refine ⟨fun b _ => ?_, by rw [cls, first]⟩
    have := b.cmd.cls_range
    omega
  | none =>
    have noFirst := queue_no_class first
    cases second : q.find? (fun d => d.cmd.cls = 2) with
    | some d =>
      rw [first, second] at h
      obtain rfl : d = e := Option.some.inj h
      have cls : d.cmd.cls = 2 := by simpa using List.find?_some second
      refine ⟨fun b hb => ?_, by rw [cls, second]⟩
      have := b.cmd.cls_range
      have := noFirst b hb
      omega
    | none =>
      have third : ∀ d ∈ q, d.cmd.cls = 3 := fun d hd => by
        have := d.cmd.cls_range
        have := noFirst d hd
        have := queue_no_class second d hd
        omega
      rw [first, second] at h
      cases q with
      | nil => exact nomatch h
      | cons d q =>
        obtain rfl : d = e := Option.some.inj h
        have cls := third d (by simp)
        exact ⟨fun b hb => by rw [cls, third b hb], by simp⟩

/-! ### The downstream frame (R25, R194) -/

theorem trunkFrame_layout (n : Byte) (echoes : List Echo) (cmd : Option (Option (Fin 120) × Cmd)) (sample : Int) :
    (trunkFrame n echoes cmd sample).length = 12 ∧ (trunkFrame n echoes cmd sample).take 2 = [0xA5, n]
      ∧ (trunkFrame n echoes cmd sample).getD 11 0 = crc8 (((trunkFrame n echoes cmd sample).drop 1).take 10) := by
  have echo : ∀ o : Option Echo, ∃ a b, echoField o = [a, b] := fun o => by cases o <;> exact ⟨_, _, rfl⟩
  have command : ∃ a b c, commandField cmd = [a, b, c] := by rcases cmd with _ | ⟨target, cmd⟩ <;> exact ⟨_, _, _, rfl⟩
  obtain ⟨a, b, first⟩ := echo echoes[0]?
  obtain ⟨c, d, second⟩ := echo echoes[1]?
  obtain ⟨k, l, m, third⟩ := command
  simp [trunkFrame, first, second, third, s16, halfBytes]

/-- The port `q` after the next frame, and the frame with a command, gone out (R25). -/
def State.frameSent (s : State) (t : Fin 4) (cmd : Option (Option (Fin 120) × Cmd)) (q : Tpc) : State := { s with
  trunks := vset s.trunks t { q with
    nextFrame := (s.tpc t).nextFrame + 1, framesSent := min 4 ((s.tpc t).framesSent + 1), echoes := [] }
  trunkOut := vset s.trunkOut t (some (trunkFrame (s.tpc t).nextFrame (s.tpc t).echoes cmd s.fmx.mixSample)) }

/-- Choosing a command leaves the link, the frame number and the frames counted. -/
theorem Tpc.arbitrate_frame (p : Tpc) : p.arbitrate.2.link = p.link ∧ p.arbitrate.2.nextFrame = p.nextFrame
    ∧ p.arbitrate.2.framesSent = p.framesSent := by
  unfold Tpc.arbitrate
  split
  · split <;> exact ⟨rfl, rfl, rfl⟩
  · split
    · split <;> exact ⟨rfl, rfl, rfl⟩
    · split <;> exact ⟨rfl, rfl, rfl⟩

section
variable {p : Tpc} {cmd : Cmd} {pos : Fin 120} {f : InFlight}

theorem Tpc.arbitrate_queued (empty : p.inFlight = none) (queued : nextQueued p.queue = some ⟨some pos, cmd⟩) : p.arbitrate
    = (some (some pos, cmd), { p with queue := p.queue.erase ⟨some pos, cmd⟩, inFlight := some ⟨pos, cmd, 1, p.nextFrame, .sent⟩ }) := by
  simp only [Tpc.arbitrate, empty, queued]

theorem Tpc.arbitrate_allOff (empty : p.inFlight = none) (queued : nextQueued p.queue = some ⟨none, cmd⟩) :
    p.arbitrate = (some (none, cmd), { p with queue := p.queue.erase ⟨none, cmd⟩ }) := by
  simp only [Tpc.arbitrate, empty, queued]

theorem Tpc.arbitrate_retry (flight : p.inFlight = some f) (retry : f.status = .retry) : p.arbitrate
    = (some (some f.pos, f.cmd), { p with inFlight := some { f with attempts := f.attempts + 1, frame := p.nextFrame, status := .sent } }) := by
  simp only [Tpc.arbitrate, flight, retry]

theorem Tpc.arbitrate_waiting (flight : p.inFlight = some f) (sent : f.status = .sent) : p.arbitrate = (none, p) := by
  simp only [Tpc.arbitrate, flight, sent]

theorem Tpc.arbitrate_probe (empty : p.inFlight = none) (nothing : p.queue = []) (census : p.censusRunning = true)
    (probe : p.nextProbe = pos.val + 1) : p.arbitrate
    = (some (some pos, .probe), { p with inFlight := some ⟨pos, .probe, 1, p.nextFrame, .sent⟩, nextProbe := p.nextProbe + 1 }) := by
  simp [Tpc.arbitrate, empty, nothing, nextQueued, census, probe]

theorem Tpc.arbitrate_nothing (empty : p.inFlight = none) (nothing : p.queue = []) (noCensus : p.censusRunning = false) :
    p.arbitrate = (none, p) := by
  simp [Tpc.arbitrate, empty, nothing, nextQueued, noCensus]

end

/-- A HELD trunk sends nothing (R25). -/
theorem State.sendTrunk_held {s : State} {t : Fin 4} (held : (s.tpc t).link = .held) : s.sendTrunk t = s := if_pos held

/-- A trunk that is DOWN or TRAINING sends a frame without echoes and command (R25). -/
theorem State.sendTrunk_off {s : State} {t : Fin 4} (off : (s.tpc t).link = .down ∨ (s.tpc t).link = .training) : s.sendTrunk t = { s with
    trunks := vset s.trunks t (s.tpc t).advance
    trunkOut := vset s.trunkOut t (some (trunkFrame (s.tpc t).nextFrame [] none s.fmx.mixSample)) } := by
  have down : (s.tpc t).link ≠ .up ∧ (s.tpc t).link ≠ .held := by rcases off with link | link <;> simp [link]
  have port : State.tpc { (s.modTpc t fun _ => (s.tpc t).advance) with
      trunkOut := vset s.trunkOut t (some (trunkFrame (s.tpc t).nextFrame [] none s.fmx.mixSample)) } t = (s.tpc t).advance :=
    vget_vset_self _ _ _
  simp only [State.sendTrunk, Tpc.sendFrame, if_neg down.1, if_neg down.2, port]
  split
  · rename_i up _
    exact absurd up down.1
  · rfl

/-- An UP trunk sends its echoes and the command R33 chooses; where the frame is the fourth after that of a command in flight, its attempt fails
(R25, R33, R34). -/
theorem State.sendTrunk_up {s : State} {t : Fin 4} {cmd : Option (Option (Fin 120) × Cmd)} {q : Tpc} (up : (s.tpc t).link = .up)
    (chosen : (s.tpc t).arbitrate = (cmd, q)) : s.sendTrunk t
      = (match q.inFlight with
        | some f => if f.status = .sent ∧ 4 ≤ ((s.tpc t).nextFrame - f.frame).toNat then (s.frameSent t cmd q).attemptFailed t f
          else s.frameSent t cmd q
        | none => s.frameSent t cmd q) := by
  obtain ⟨link, number, count⟩ := (s.tpc t).arbitrate_frame
  rw [chosen] at link number count
  simp only at link number count
  have sent : { (s.modTpc t fun _ => ((s.tpc t).sendFrame s.fmx.mixSample).2) with
      trunkOut := vset s.trunkOut t (some ((s.tpc t).sendFrame s.fmx.mixSample).1) } = s.frameSent t cmd q := by
    simp [Tpc.sendFrame, up, chosen, State.frameSent, State.modTpc, Tpc.advance, number, count]
  have port : (s.frameSent t cmd q).tpc t = { q with
      nextFrame := (s.tpc t).nextFrame + 1, framesSent := min 4 ((s.tpc t).framesSent + 1), echoes := [] } := vget_vset_self _ _ _
  unfold State.sendTrunk
  simp only [up, reduceCtorEq, if_false, sent, port, link, Tpc.overdue, Tpc.age, BitVec.add_sub_cancel]
  cases q.inFlight with
  | none => rfl
  | some f =>
    dsimp only
    by_cases due : f.status = .sent ∧ 4 ≤ ((s.tpc t).nextFrame - f.frame).toNat
    · rw [if_pos due, if_pos due]
    · rw [if_neg due, if_neg due]

/-- A command just sent, or sent again, is in flight in time. -/
theorem State.sendTrunk_sent {s : State} {t : Fin 4} {cmd : Option (Option (Fin 120) × Cmd)} {q : Tpc} (up : (s.tpc t).link = .up)
    (chosen : (s.tpc t).arbitrate = (cmd, q)) (inTime : ∀ f, q.inFlight = some f → ((s.tpc t).nextFrame - f.frame).toNat < 4) :
    s.sendTrunk t = s.frameSent t cmd q := by
  rw [State.sendTrunk_up up chosen]
  split
  · rename_i f flight
    exact if_neg fun due => absurd (inTime f flight) (not_lt.mpr due.2)
  · rfl

/-- The fourth frame after a command that has attempts left is sent, and the command is to be retried (R34, R36). -/
theorem State.sendTrunk_overdue {s : State} {t : Fin 4} {f : InFlight} (up : (s.tpc t).link = .up) (flight : (s.tpc t).inFlight = some f)
    (sent : f.status = .sent) (old : 4 ≤ ((s.tpc t).nextFrame - f.frame).toNat) (command : f.cmd ≠ .probe)
    (more : f.attempts < s.mge.settings.retryLimit) :
    s.sendTrunk t = s.frameSent t none { s.tpc t with inFlight := some { f with status := .retry } } := by
  have more' : f.attempts < (s.frameSent t none (s.tpc t)).mge.settings.retryLimit := more
  rw [State.sendTrunk_up up (Tpc.arbitrate_waiting flight sent), flight]
  dsimp only
  rw [if_pos ⟨sent, old⟩, State.attemptFailed, if_neg command, if_pos more']
  simp [State.modTpc, State.frameSent, State.tpc]

/-! ### The port at RESET_ENGINE (R49, R192) -/

/-- The records left in the packet of a RESET_ENGINE are answered SKIPPED behind its own reply (R171). -/
theorem Place.skipRest_eq (p : Place) : p.skipRest = { p with
    waiting := []
    answered := p.answered ++ ⟨0x57, .ok, []⟩ :: p.waiting.tail.map fun r => ⟨r.getD 0 0, .skipped, []⟩ } := by
  simp only [Place.skipRest, List.append_assoc, List.drop_one]
  rfl

theorem State.runReset_eq {s : State} (h : s.takes .resetEngine) : s.runReset =
    (if s.nextRecord.isSome then (s.setReply resetReply).modHli fun h => { h with replyQueue := modNextPlace Place.skipRest h.replyQueue }
      else s.setReply resetReply).engineReset := by
  simp [State.runReset, h.1, h.2]

end Sys2Proof.Machine

namespace Sys2Proof.Proofs

open Sys2Proof.Machine

/-- Settles O20. -/
theorem placementCombinesUnsentCommands : Obligations.PlacementCombinesUnsentCommands := by
  unfold Obligations.PlacementCombinesUnsentCommands
  refine ⟨fun s x cmd off => State.place_discarded off cmd, fun s x cmd up present unsent => ?_,
    fun s x old cmd up present unsent once => State.place_combined up present unsent once cmd, fun k m k' m' => ?_⟩
  · have fresh := enqueue_new x.pos cmd (s.tpc x.trunk).queue (Option.map_eq_none_iff.mp unsent)
    rw [State.place_taken up present, State.modTpc, fresh]
  · simp [coalesce, Cmd.isIndication, Cmd.isFloor]

/-- Settles O24: a frame sent while UP is an equation on the choice of R33, and each clause names its choice. -/
theorem trunkFrameSendCarriesCommand : Obligations.TrunkFrameSendCarriesCommand := by
  unfold Obligations.TrunkFrameSendCarriesCommand
  refine ⟨fun q e => nextQueued_spec, trunkFrame_layout, fun s t running => ?_⟩
  intro p sent
  have run : exec (.trunkFrameSend t) s = .next (s.sendTrunk t).settle := congrArg Host.Outcome.next (if_pos running)
  rw [run]
  have next : ∀ {a b : State}, a = b → (Host.Outcome.next a.settle : Host.Outcome State Fault Refusal) = .next b.settle := fun h => by rw [h]
  have now : (p.nextFrame - p.nextFrame).toNat < 4 := by simp
  refine ⟨fun held => next (State.sendTrunk_held held), fun off => next (State.sendTrunk_off off), fun pos cmd up empty queued => ?_,
    fun cmd up empty queued => ?_, fun f up flight retry => ?_, fun pos up empty nothing census probe => ?_,
    fun up empty nothing noCensus => ?_, fun f up flight status young => ?_, fun f up flight status old command more => ?_⟩
  · exact next (State.sendTrunk_sent up (Tpc.arbitrate_queued empty queued) (by rintro f ⟨⟩; exact now))
  · refine next (State.sendTrunk_sent up (Tpc.arbitrate_allOff empty queued) fun f flight => ?_)
    exact nomatch empty.symm.trans flight
  · exact next (State.sendTrunk_sent up (Tpc.arbitrate_retry flight retry) (by rintro f ⟨⟩; exact now))
  · exact next (State.sendTrunk_sent up (Tpc.arbitrate_probe empty nothing census probe) (by rintro f ⟨⟩; exact now))
  · refine next (State.sendTrunk_sent up (Tpc.arbitrate_nothing empty nothing noCensus) fun f flight => ?_)
    exact nomatch empty.symm.trans flight
  · refine next (State.sendTrunk_sent up (Tpc.arbitrate_waiting flight status) fun g flight' => ?_)
    obtain rfl : f = g := Option.some.inj (flight.symm.trans flight')
    exact young
  · exact next (State.sendTrunk_overdue up flight status old command more)

/-- Settles O7. -/
theorem resetEngineClearsFloorKeepsSeating : Obligations.ResetEngineClearsFloorKeepsSeating := by
  unfold Obligations.ResetEngineClearsFloorKeepsSeating
  intro s takes
  refine ⟨s.runReset, rfl, ?_⟩
  rw [State.runReset_eq takes]
  cases record : s.nextRecord.isSome <;> refine ⟨⟨rfl, rfl, rfl, rfl, rfl⟩, ⟨rfl, rfl, rfl⟩, fun k => vget_map .., rfl, rfl, ?_⟩
  · rfl
  · rw [← funext Place.skipRest_eq]
    rfl

end Sys2Proof.Proofs
end

section
/-! PROOF. Chair events: of a seat that is no chair (O26), and PRIORITY_UP, by which a chair leaves the hold set (O35). -/

namespace Sys2Proof.Machine

/-! ### Intake and the classes of seats (R27) -/

@[simp] theorem State.afterIntake_kindOf (s : State) (x : Seat) (serial : Fin 16) : (s.afterIntake x serial).kindOf x = s.kindOf x :=
  congrArg ClassRec.kind (s.afterIntake_classOf x serial)

/-- Intake changes no level of a seat. -/
@[simp] theorem State.afterIntake_levelOf (s : State) (x y : Seat) (serial : Fin 16) : (s.afterIntake x serial).levelOf y = s.levelOf y := by
  have cls : ((s.afterIntake x serial).seatRec y).cls = (s.seatRec y).cls := by
    simp only [State.seatRec, State.afterIntake_stb, vget_vset]
    split
    · rename_i same
      rw [same]
    · rfl
  simp only [State.levelOf, State.classOf, cls, State.afterIntake_stb]

theorem State.afterIntake_levelOfMembers (s : State) (x : Seat) (serial : Fin 16) (members : List Seat) :
    (s.afterIntake x serial).levelOfMembers members = s.levelOfMembers members := by
  simp only [State.levelOfMembers, State.afterIntake_levelOf]

/-- Intake queues and sends no command. -/
theorem State.afterIntake_queues (s : State) (x : Seat) (serial : Fin 16) (t : Fin 4) :
    (s.afterIntake x serial).tpc t = { s.tpc t with echoes := ((s.afterIntake x serial).tpc t).echoes } := by
  simp only [State.tpc, State.afterIntake_trunks, State.echo, State.modTpc, vget_vset]
  split
  · rename_i same
    rw [same]
  · rfl

theorem State.afterIntake_unsent (s : State) (x y : Seat) (serial : Fin 16) : (s.afterIntake x serial).unsent y = s.unsent y := by
  rw [State.unsent, State.afterIntake_queues]
  rfl

theorem State.afterIntake_inFlightFor (s : State) (x y : Seat) (serial : Fin 16) :
    (s.afterIntake x serial).inFlightFor y = s.inFlightFor y := by
  rw [State.inFlightFor, State.afterIntake_queues]
  rfl

/-- A seat PRESENT before an intake is PRESENT after it (R27). -/
theorem State.afterIntake_present {s : State} (x : Seat) {y : Seat} (serial : Fin 16) (present : (s.seatRec y).availability = .present) :
    ((s.afterIntake x serial).seatRec y).availability = .present := by
  simp only [State.seatRec, State.afterIntake_stb, vget_vset]
  split
  · rfl
  · exact present

/-! ### Chair events (R29) -/

/-- An event of any kind but HELLO, MIC_PRESS and CONFIRM is a chair event: of a seat that is no chair it sets BAD_EVENT (R29). -/
theorem State.dispatch_not_chair {s : State} {x : Seat} {kind : EventKind} (hello : kind ≠ .hello) (press : kind ≠ .micPress)
    (confirm : kind ≠ .confirm) (other : s.kindOf x ≠ .chair) (arg : Byte) (wasPresent : Bool) :
    s.dispatch (some kind) arg wasPresent x = s.setFlag .badEvent := by
  cases kind with
  | hello => exact absurd rfl hello
  | micPress => exact absurd rfl press
  | confirm => exact absurd rfl confirm
  | priorityDown => exact if_neg other
  | priorityUp => exact if_neg other
  | chairNext => exact if_neg other
  | chairClear => exact if_neg other
  | takeList => exact if_neg other
  | giveList => exact if_neg other

/-- What PRIORITY_UP of a chair comes to (R120). -/
theorem exec_priorityUp {t : Fin 4} {position : Fin 128} {serial : Fin 16} {s : State} {x : Seat} (taken : s.takesEvent t position serial x)
    (chair : s.kindOf x = .chair) (arg : Byte) :
    exec (.priorityUp t position serial arg) s = .next ((s.afterIntake x serial).priorityReleased x).settle := by
  have run := exec_seatEventOf .priorityUp t position serial arg s
  rw [State.seatEvent_eq taken] at run
  have chair' : (s.afterIntake x serial).kindOf x = .chair := by rw [State.afterIntake_kindOf, chair]
  refine run.trans ?_
  simp only [State.dispatch, State.chairEvent, if_pos chair']

/-- A member's leaving after its event was taken in, in the words of O35 (R117, R120). -/
theorem State.afterIntake_memberLeft {s : State} {x : Seat} (serial : Fin 16) (member : x ∈ s.far.holdSet) :
    (s.afterIntake x serial).memberLeft x
      = State.notify (.hold (some x) .left (s.levelOfMembers (s.far.holdSet.filter fun y => y ≠ x)) (s.far.holdSet.filter fun y => y ≠ x).length)
        { s.afterIntake x serial with far := { s.far with
          holdSet := s.far.holdSet.filter fun y => y ≠ x
          holdLevel := s.levelOfMembers (s.far.holdSet.filter fun y => y ≠ x) } } := by
  simp only [State.memberLeft, State.afterIntake_far, if_pos member, State.afterIntake_levelOfMembers]

/-! ### A fall that brings a channel back at once (R32, R121) -/

/-- A HELD channel no longer below the level whose MUTE is unsent, with no UNMUTE in flight, is OPEN again at once (R121). -/
theorem State.unmutedAt_resumed {s : State} {c : Fin 12} {y : Seat} (held : (s.chan c).state = .held) (seat : (s.chan c).seat = some y)
    (below : s.belowHold c = false) (unsent : s.unsent y = some .mute) (flight : s.inFlightFor y ≠ some .unmute)
    (up : (s.tpc y.trunk).link = .up) (present : (s.seatRec y).availability = .present) :
    (s.unmutedAt c).chan c = { s.chan c with state := .opened, reachedOpen := some true }
      ∧ (∀ d, d ≠ c → (s.unmutedAt c).chan d = s.chan d)
      ∧ (s.unmutedAt c).far = { s.far with channels := (s.unmutedAt c).far.channels }
      ∧ (s.unmutedAt c).trunks = (s.place y .unmute).trunks ∧ (s.unmutedAt c).fmx = s.fmx
      ∧ s.onlyNotices [.chResumed c y] (s.unmutedAt c) := by
  have others : ∀ d, d ≠ c → (s.unmutedAt c).chan d = s.chan d := fun d => State.unmutedAt_chan_other
  have resumed : s.unmutedAt c = State.notify (.chResumed c y) { s.place y .unmute with
      far := { s.far with channels := vset s.far.channels c { s.chan c with state := .opened, reachedOpen := some true } }
      slm := if s.mge.settings.levelMonitor then
          vset s.slm c { s.slmOf c with progress := some 0, exponent := some s.mge.settings.windowExponent, sum := 0 }
        else s.slm
      stb := if (s.chan c).reachedOpen = some false then (s.modSeat y fun r => { r with grants := min 65535 (r.grants + 1) }).stb else s.stb } := by
    simp [State.unmutedAt, held, seat, below, unsent, flight, up, present]
  refine ⟨?_, others, ?_, ?_, ?_, ?_⟩
  · rw [resumed, State.notify_chan]
    exact vget_vset_self _ _ _
  · rw [resumed, State.notify_far]
  · rw [resumed, State.notify_trunks]
  · rw [resumed, State.notify_fmx]
    exact s.place_fmx y .unmute
  · rw [resumed]
    refine State.onlyNotices_after ?_ (State.onlyNotices_notify _ _)
    obtain ⟨h1, h2, h3, h4, h5, -, -, h8, h9⟩ := s.onlyNotices_place y .unmute
    refine State.onlyNotices_of h1 h2 h3 h4 h5 ?_ ?_ h8 h9
    · dsimp only
      split <;> rfl
    · dsimp only
      split <;> rfl

end Sys2Proof.Machine

namespace Sys2Proof.Proofs

open Sys2Proof.Machine

/-- Settles O26. -/
theorem chairEventsNeedAChair : Obligations.ChairEventsNeedAChair := by
  unfold Obligations.ChairEventsNeedAChair
  intro kind t position serial arg s x hello press confirm taken other
  rw [exec_seatEventOf, State.seatEvent_eq taken,
    State.dispatch_not_chair hello press confirm (by rwa [State.afterIntake_kindOf])]

/-- Settles O35: `levelMet` says what the level of the members left does to the floor; a channel brought back at once is `unmutedAt_resumed`. -/
theorem priorityUpLowersTheHold : Obligations.PriorityUpLowersTheHold := by
  unfold Obligations.PriorityUpLowersTheHold
  intro t position serial arg s x taken chair a members level left release
  have run : release = .next (a.priorityReleased x).settle := exec_priorityUp taken chair arg
  have leaves : ∀ {u : State}, a.priorityReleased x = u → release = .next u.settle := fun h => h ▸ run
  have met := a.priorityReleased_levelMet x
  have before : a.far.holdLevel = s.far.holdLevel := by rw [State.afterIntake_far]
  have chan : ∀ c, left.chan c = s.chan c := fun c => State.notify_chan ..
  have port : ∀ k, left.tpc k = a.tpc k := fun k => State.notify_tpc ..
  have unsent_left : ∀ y, left.unsent y = s.unsent y := fun y => by
    rw [← s.afterIntake_unsent x y serial, State.unsent, port]
    rfl
  have flight_left : ∀ y, left.inFlightFor y = s.inFlightFor y := fun y => by
    rw [← s.afterIntake_inFlightFor x y serial, State.inFlightFor, port]
    rfl
  have reached : left.far.holdLevel = level := by simp only [left, State.notify_far]
  rw [before] at met
  refine ⟨fun outside => leaves (State.priorityReleased_of_not_mem (by rwa [State.afterIntake_far])), fun member same => ?_,
    fun member fell => ?_, fun member fell none => ?_, fun c y l member fell only seat copied high unsent flight => ?_,
    fun c y l member fell only seat copied high unsent flight up present => ?_⟩
  all_goals
    have gone : a.memberLeft x = left := State.afterIntake_memberLeft serial member
    rw [gone] at met
    obtain ⟨unchanged, fallen, none_held, one_held, -⟩ := met
  · exact leaves (unchanged (reached.trans same))
  · exact leaves (fallen (reached.trans_lt fell))
  · exact leaves (none_held (reached.trans_lt fell) (by simpa only [chan] using none))
  · obtain ⟨-, places⟩ := one_held c y l (reached.trans_lt fell) (by simpa only [chan] using only) (by rwa [chan]) (by rwa [chan])
    exact leaves (places (reached.trans_le high) ((unsent_left y).trans unsent) (flight_left y ▸ flight))
  · have only' : ∀ d, (left.chan d).state = .held ↔ d = c := by simpa only [chan] using only
    have below : left.belowHold c = false := by
      simp [State.belowHold_of_level (s := left) (c := c) (l := l) (by rwa [chan]), reached, not_lt.mpr high]
    have up' : (left.tpc y.trunk).link = .up := by rw [port, State.afterIntake_queues]; exact up
    have present' : (left.seatRec y).availability = .present := by
      rw [State.notify_seatRec]
      exact State.afterIntake_present x serial present
    obtain ⟨resumed, others, far, trunks, fmx, told⟩ := State.unmutedAt_resumed ((only' c).mpr rfl) (by rwa [chan]) below
      ((unsent_left y).trans unsent) (flight_left y ▸ flight) up' present'
    refine ⟨(left.unmutedAt c).trigger, leaves ((fallen (reached.trans_lt fell)).trans (State.fallen_of_one_held only')), ?_, fun d other => ?_,
      ?_, ?_, ?_, ?_⟩
    · rw [State.trigger_chan, resumed, chan]
    · rw [State.trigger_chan, others d other, chan]
    · rw [State.trigger, State.modFar_far, far]
      simp only [left, State.notify_far]
    · rw [State.trigger_trunks, trunks]
      exact State.place_trunks_congr .unmute (State.notify_trunks ..) (by rw [State.notify_seatRec]; rfl)
    · rw [State.trigger_fmx, fmx, State.notify_fmx]
      exact s.afterIntake_fmx x serial
    · have leaving : a.onlyNotices [.hold (some x) .left level members.length] left :=
        State.onlyNotices_after (b := { a with far := { s.far with holdSet := members, holdLevel := level } })
          (State.onlyNotices_of rfl rfl rfl rfl rfl rfl rfl rfl rfl) (State.onlyNotices_notify _ _)
      exact State.onlyNotices_then (State.onlyNotices_trans leaving told) (State.onlyNotices_of rfl rfl rfl rfl rfl rfl rfl rfl rfl)

end Sys2Proof.Proofs
end

section
/-! PROOF. Completions: of OPEN (O39), and of OFFER, WITHDRAW and the indications (O42). -/

namespace Sys2Proof.Machine

/-! ### Acknowledgements (R34, R35) -/

/-- The command awaiting its acknowledgement is completed. -/
theorem State.takeAck_of_awaiting {s : State} {x : Seat} {cmd : Cmd} (awaiting : s.awaiting x = some cmd) {answers : Cmd → Bool}
    (matching : answers cmd = true) (result : AckResult) (data : Byte) :
    s.takeAck x answers result data = ((s.afterDelivery x).completed x cmd result data).settle := by
  simp only [State.takeAck, awaiting, if_pos matching]
  rfl

/-- Without a command sent to the seat there is nothing to complete (log entry 1). -/
theorem State.takeAck_of_none {s : State} {x : Seat} (awaiting : s.awaiting x = none) (answers : Cmd → Bool) (result : AckResult) (data : Byte) :
    s.takeAck x answers result data = s := by
  simp only [State.takeAck, awaiting]

/-- A delivery ended leaves the queues. -/
theorem State.afterDelivery_unsent (s : State) (x : Seat) : (s.afterDelivery x).unsent x = s.unsent x := by
  rw [State.unsent, State.afterDelivery, State.endDelivery, State.modTpc_tpc_self]
  rfl

/-! ### One channel changed -/

/-- A state whose floor table and SLM differ from those of `s` in one channel. -/
theorem State.one_channel {s u : State} {c : Fin 12} {ch : Channel} {m : SlmChan}
    (far : u.far = { s.far with channels := vset s.far.channels c ch }) (slm : u.slm = vset s.slm c m) (fmx : u.fmx = s.fmx) :
    u.chan c = ch ∧ ((∀ d, d ≠ c → u.chan d = s.chan d) ∧ u.far = { s.far with channels := u.far.channels } ∧ u.fmx = s.fmx
      ∧ ∀ d, d ≠ c → u.slmOf d = s.slmOf d) ∧ u.slmOf c = m := by
  refine ⟨?_, ⟨fun d other => ?_, ?_, fmx, fun d other => ?_⟩, ?_⟩
  · rw [State.chan, far]
    exact vget_vset_self _ _ _
  · rw [State.chan, far]
    exact vget_vset_other _ _ _ _ other.symm
  · rw [far]
  · rw [State.slmOf, slm]
    exact vget_vset_other _ _ _ _ other.symm
  · rw [State.slmOf, slm]
    exact vget_vset_self _ _ _

/-! ### The comparison at the entry to OPEN (R139, R140) -/

/-- The seat is warned with the clock at 0: its allowance is not 0 and at or below a nonzero warn lead (R140). -/
abbrev State.warnsAtOpen (s : State) (c : Fin 12) (x : Seat) : Prop :=
  s.allowanceOf x ≠ 0 ∧ s.mge.settings.warnLead ≠ 0 ∧ s.allowanceOf x ≤ s.mge.settings.warnLead ∧ (s.slmOf c).warned = false

/-- With the clock at 0 no allowance expires (R141). -/
theorem State.expireStep_zero {s : State} {c : Fin 12} (clock : (s.slmOf c).clock = 0) : s.expireStep c = s := by
  unfold State.expireStep
  split
  · rename_i x _ _
    have early : s.expiryDue c x = false := by
      simp only [State.expiryDue, clock, Bool.and_eq_false_imp, decide_eq_true_eq, decide_eq_false_iff_not]
      omega
    rw [if_neg (by simp [early])]
  · rfl

theorem State.warnDue_zero {s : State} {c : Fin 12} (clock : (s.slmOf c).clock = 0) (x : Seat) : s.warnDue c x = true ↔ s.warnsAtOpen c x := by
  simp only [State.warnDue, State.warnsAtOpen, clock, Bool.and_eq_true, decide_eq_true_eq, Bool.not_eq_true']
  have lead : (s.allowanceOf x - s.mge.settings.warnLead) * 10 ≤ 0 ↔ s.allowanceOf x ≤ s.mge.settings.warnLead := by omega
  rw [lead]
  tauto

theorem State.comparison_zero_quiet {s : State} {c : Fin 12} {x : Seat} (opened : (s.chan c).state = .opened) (seat : (s.chan c).seat = some x)
    (clock : (s.slmOf c).clock = 0) (quiet : ¬ s.warnsAtOpen c x) : s.comparison c = s := by
  have early : s.warnStep c = s := by
    simp only [State.warnStep, opened, seat]
    exact if_neg fun due => quiet ((State.warnDue_zero clock x).mp due)
  rw [State.comparison, early, State.expireStep_zero clock]

theorem State.comparison_zero_warns {s : State} {c : Fin 12} {x : Seat} (opened : (s.chan c).state = .opened) (seat : (s.chan c).seat = some x)
    (clock : (s.slmOf c).clock = 0) (warns : s.warnsAtOpen c x) : s.comparison c
      = ((s.modSlm c fun m => { m with warned := true }).place x .warn).notify
        (.warn c x 0 (s.allowanceOf x) s.mge.settings.warnLead) := by
  have warned : s.warnStep c = ((s.modSlm c fun m => { m with warned := true }).place x .warn).notify
      (.warn c x 0 (s.allowanceOf x) s.mge.settings.warnLead) := by
    simp only [State.warnStep, opened, seat, if_pos ((State.warnDue_zero clock x).mpr warns), clock]
  have stopped : ((((s.modSlm c fun m => { m with warned := true }).place x .warn).notify
      (.warn c x 0 (s.allowanceOf x) s.mge.settings.warnLead)).slmOf c).clock = 0 := by
    rw [State.slmOf, State.notify_slm, State.place_slm]
    exact (congrArg SlmChan.clock (s.modSlm_slmOf_self c _)).trans clock
  rw [State.comparison, warned, State.expireStep_zero stopped]

/-! ### An OPEN done (R55, R56) -/

/-- SLM's record of channel `c` when it enters OPEN: the clock at 0, and a window begun where the level monitor is on (R55, R145). -/
def State.slmAtOpen (s : State) (c : Fin 12) : SlmChan :=
  if s.mge.settings.levelMonitor then
    { s.slmOf c with clock := 0, progress := some 0, exponent := some s.mge.settings.windowExponent, sum := 0 }
  else { s.slmOf c with clock := 0 }

/-- Channel `c` of seat `x` enters OPEN, a grant counted; neither told nor compared yet (R55). -/
def State.entersOpen (s : State) (c : Fin 12) (x : Seat) : State := { s with
  far := { s.far with channels := vset s.far.channels c { s.chan c with state := .opened, reachedOpen := some true } }
  slm := vset s.slm c (s.slmAtOpen c)
  stb := (s.modSeat x fun r => { r with grants := min 65535 (r.grants + 1) }).stb }

theorem State.entersOpen_eq {s : State} {c : Fin 12} {x : Seat} (seat : (s.chan c).seat = some x) :
    ((((s.modSlm c fun m => { m with clock := 0 }).modChan c fun ch =>
      { ch with state := .opened, reachedOpen := some true }).startWindow c).countGrant c) = s.entersOpen c x := by
  have started : ((s.modSlm c fun m => { m with clock := 0 }).modChan c fun ch =>
      { ch with state := .opened, reachedOpen := some true }).startWindow c
      = { s with
        far := { s.far with channels := vset s.far.channels c { s.chan c with state := .opened, reachedOpen := some true } }
        slm := vset s.slm c (s.slmAtOpen c) } := by
    simp only [State.startWindow, State.modChan_mge, State.modSlm_mge, State.slmAtOpen]
    by_cases monitor : s.mge.settings.levelMonitor = true
    · simp only [monitor, ↓reduceIte]
      simp [State.modChan, State.modSlm, State.slmOf, State.chan]
    · simp only [monitor, Bool.false_eq_true, ↓reduceIte]
      rfl
  have seat' : (((s.modSlm c fun m => { m with clock := 0 }).modChan c fun ch =>
      { ch with state := .opened, reachedOpen := some true }).startWindow c |>.chan c).seat = some x := by
    rw [started]
    exact (congrArg Channel.seat (vget_vset_self _ _ _)).trans seat
  simp only [State.countGrant, seat']
  rw [started]
  rfl

/-- Channel `c` enters HELD with its clock at 0, not told yet (R56). -/
def State.entersHeld (s : State) (c : Fin 12) : State := { s with
  far := { s.far with channels := vset s.far.channels c { s.chan c with state := .held } }
  slm := vset s.slm c { s.slmOf c with clock := 0 } }

/-- What the entry to HELD changes, whatever is told and placed beside it. -/
theorem State.entersHeld_spec {s u : State} {c : Fin 12} (far : u.far = (s.entersHeld c).far) (slm : u.slm = (s.entersHeld c).slm)
    (fmx : u.fmx = (s.entersHeld c).fmx) : u.chan c = { s.chan c with state := .held }
      ∧ ((∀ d, d ≠ c → u.chan d = s.chan d) ∧ u.far = { s.far with channels := u.far.channels } ∧ u.fmx = s.fmx
        ∧ ∀ d, d ≠ c → u.slmOf d = s.slmOf d) ∧ u.slmOf c = { s.slmOf c with clock := 0 } :=
  State.one_channel far slm fmx

section
variable {s : State} {c : Fin 12} {x : Seat}

/-- CH_OPEN of a channel that enters a state (R70). -/
def State.openNotice (s : State) (c : Fin 12) (x : Seat) (entered : ChanState) : Notice := .chOpen c x (s.chan c).slot (s.chan c).cause entered

/-- The notices of a channel that enters HELD from OPENING (R70). -/
def State.heldNotices (s : State) (c : Fin 12) (x : Seat) : List Notice := [s.openNotice c x .held, .chHeld c x]

theorem State.openDone_opened (seat : (s.chan c).seat = some x) (muted : (s.chan c).mutedAtOpen = some false) (above : s.belowHold c = false) :
    s.openDone c x = ((s.entersOpen c x).notify (s.openNotice c x .opened)).comparison c := by
  rw [← State.entersOpen_eq seat]
  simp only [State.openDone, muted, above, Option.getD_some]
  rfl

theorem State.openDone_mute (muted : (s.chan c).mutedAtOpen = some false) (below : s.belowHold c = true) :
    s.openDone c x = ((s.entersHeld c).place x .mute).notices (s.heldNotices c x) := by
  simp only [State.openDone, muted, below, Option.getD_some]
  rfl

theorem State.openDone_held (muted : (s.chan c).mutedAtOpen = some true) (below : s.belowHold c = true) :
    s.openDone c x = (s.entersHeld c).notices (s.heldNotices c x) := by
  simp only [State.openDone, muted, below, Option.getD_some]
  rfl

theorem State.openDone_unmute (muted : (s.chan c).mutedAtOpen = some true) (above : s.belowHold c = false) :
    s.openDone c x = ((s.entersHeld c).notices (s.heldNotices c x)).placeUnmute c x := by
  simp only [State.openDone, muted, above, Option.getD_some]
  rfl

/-- An UNMUTE that meets no unsent MUTE only joins the queue (R32). -/
theorem State.placeUnmute_eq_place (unsent : s.unsent x ≠ some .mute) (c : Fin 12) : s.placeUnmute c x = s.place x .unmute := by
  have kept : (s.placeReport x .unmute).2 ≠ .muteDropped := fun dropped => unsent (s.placeReport_unmute_dropped x |>.mp dropped).1
  simp only [State.placeUnmute]
  exact if_neg fun h => kept h.1

theorem State.onlyNotices_entersHeld : s.onlyNotices [] (s.entersHeld c) := State.onlyNotices_of rfl rfl rfl rfl rfl rfl rfl rfl rfl

theorem State.onlyNotices_entersOpen : s.onlyNotices [] (s.entersOpen c x) := State.onlyNotices_of rfl rfl rfl rfl rfl rfl rfl rfl rfl

/-- An OPEN done on a channel above the level: it is OPEN, and where the first comparison warns its seat WARN is placed and told (R55, R139, R140). -/
theorem State.openDone_opened_spec (seat : (s.chan c).seat = some x) (muted : (s.chan c).mutedAtOpen = some false) (above : s.belowHold c = false) :
    (s.openDone c x).far = (s.entersOpen c x).far ∧ (s.openDone c x).fmx = s.fmx ∧ (s.openDone c x).stb = (s.entersOpen c x).stb
      ∧ (s.openDone c x).slm = vset s.slm c { s.slmAtOpen c with warned := (s.slmOf c).warned || decide (s.warnsAtOpen c x) }
      ∧ (s.openDone c x).trunks = (if s.warnsAtOpen c x then s.place x .warn else s).trunks
      ∧ s.onlyNotices (s.openNotice c x .opened :: if s.warnsAtOpen c x then [.warn c x 0 (s.allowanceOf x) s.mge.settings.warnLead] else [])
        (s.openDone c x) := by
  have entered : ((s.entersOpen c x).notify (s.openNotice c x .opened)).chan c = { s.chan c with state := .opened, reachedOpen := some true } := by
    rw [State.notify_chan]
    exact vget_vset_self _ _ _
  have slm : ((s.entersOpen c x).notify (s.openNotice c x .opened)).slmOf c = s.slmAtOpen c := by
    rw [State.slmOf, State.notify_slm]
    exact vget_vset_self _ _ _
  have clock : (s.slmAtOpen c).clock = 0 ∧ (s.slmAtOpen c).warned = (s.slmOf c).warned := by
    unfold State.slmAtOpen
    split <;> exact ⟨rfl, rfl⟩
  have allowance : ((s.entersOpen c x).notify (s.openNotice c x .opened)).allowanceOf x = s.allowanceOf x := by
    simp only [State.allowanceOf, State.classOf, State.notify_seatRec, State.notify_stb]
    simp [State.entersOpen, State.seatRec, State.modSeat]
  have warns : ((s.entersOpen c x).notify (s.openNotice c x .opened)).warnsAtOpen c x ↔ s.warnsAtOpen c x := by
    simp only [State.warnsAtOpen, allowance, slm, clock.2, State.notify_settings]
    rfl
  have told := State.onlyNotices_after (s.onlyNotices_entersOpen (c := c) (x := x)) (State.onlyNotices_notify _ (s.openNotice c x .opened))
  rw [State.openDone_opened seat muted above]
  by_cases due : s.warnsAtOpen c x
  · rw [State.comparison_zero_warns (by rw [entered]) (by rw [entered]; exact seat) (by rw [slm]; exact clock.1) (warns.mpr due), allowance]
    simp only [State.notify_far, State.notify_fmx, State.notify_stb, State.notify_slm, State.notify_trunks, State.place_far, State.place_fmx,
      State.place_stb, State.place_slm, State.notify_settings, if_pos due]
    refine ⟨by simp [State.modSlm], by simp [State.modSlm, State.entersOpen], by simp [State.modSlm], ?_, ?_, ?_⟩
    · simp only [State.modSlm, slm, State.notify_slm, decide_eq_true due, Bool.or_true]
      exact vset_vset s.slm c _ _
    · exact State.place_trunks_congr .warn (by simp [State.modSlm, State.entersOpen])
        (by simp [State.seatRec, State.modSlm, State.entersOpen, State.modSeat])
    · refine State.onlyNotices_trans told (State.onlyNotices_after (State.onlyNotices_after ?_ (State.onlyNotices_place _ x .warn))
        (State.onlyNotices_notify _ _))
      exact State.onlyNotices_of rfl rfl rfl rfl rfl rfl rfl rfl rfl
  · rw [State.comparison_zero_quiet (by rw [entered]) (by rw [entered]; exact seat) (by rw [slm]; exact clock.1) fun h => due (warns.mp h)]
    rw [if_neg due, if_neg due]
    refine ⟨State.notify_far .., State.notify_fmx .., State.notify_stb .., (State.notify_slm ..).trans ?_, State.notify_trunks .., told⟩
    have kept : { s.slmAtOpen c with warned := (s.slmOf c).warned || decide (s.warnsAtOpen c x) } = s.slmAtOpen c := by
      rw [decide_eq_false due, Bool.or_false, ← clock.2]
    rw [kept]
    rfl

end

end Sys2Proof.Machine

namespace Sys2Proof.Proofs

open Sys2Proof.Machine

/-- Settles O39: the channel's state and the commands placed by the `openDone_` equation of its case, the rest by what the entry to OPEN or HELD
changes. -/
theorem openCompletes : Obligations.OpenCompletes := by
  unfold Obligations.OpenCompletes
  intro x result s
  refine ⟨fun nothing => congrArg Host.Outcome.next (State.takeAck_of_none nothing _ _ _), fun k m awaiting => ?_⟩
  intro a
  have run : ∀ r, exec (.openComplete x r) s = .next (a.openCompleted x r).settle := fun r =>
    congrArg Host.Outcome.next (State.takeAck_of_awaiting awaiting rfl r 0)
  refine ⟨fun elsewhere => ?_, fun c chan opening => ?_⟩
  · have ignored : a.openCompleted x result = a := by
      unfold State.openCompleted
      split
      · rename_i c chan
        have other : (a.chan c).state ≠ .opening := elsewhere c chan
        split
        · rename_i opening
          exact absurd opening other
        · rename_i opening
          exact absurd opening other
        all_goals rfl
      · rfl
    rw [run, ignored]
  intro others opened
  have chan' : a.chanOf x = some c := chan
  have opening' : (a.chan c).state = .opening := opening
  have seat : (a.chan c).seat = some x := State.chanOf_seat chan
  have done : ∀ {u : State}, a.openDone c x = u → exec (.openComplete x .done) s = .next u.settle := by
    rintro u rfl
    rw [run]
    simp only [State.openCompleted, chan', opening']
  have rejected : a.openCompleted x .rejected = a.freeChannel c .rejected := by
    simp only [State.openCompleted, chan', opening']
  refine ⟨?_, fun muted above => ?_, fun muted below => ?_, fun muted below => ?_, fun muted above unsent => ?_⟩
  · obtain ⟨cleared, kept, far, trunks, stb, slm, fmx, told⟩ := State.freed_of_opening (s := a) .rejected opening seat
    refine ⟨a.freeChannel c .rejected, by rw [run, rejected], cleared, kept, far, stb, slm, fmx, trunks, told⟩
  · obtain ⟨far, fmx, stb, slm, trunks, told⟩ := State.openDone_opened_spec seat muted above
    obtain ⟨channel, rest, record⟩ := State.one_channel far slm fmx
    refine ⟨a.openDone c x, done rfl, channel, rest, record.trans ?_, stb, trunks, told⟩
    have monitor : a.mge.settings.levelMonitor = s.mge.settings.levelMonitor := rfl
    simp only [State.slmAtOpen, monitor]
    split <;> rfl
  · obtain ⟨channel, rest, record⟩ := State.entersHeld_spec (s := a) (c := c) (u := ((a.entersHeld c).place x .mute).notices (a.heldNotices c x))
      (by simp) (by simp) (by simp)
    refine ⟨_, done (State.openDone_mute (s := a) muted below), channel, rest, record, ?_, ?_, ?_⟩
    · exact (State.notices_stb ..).trans (State.place_stb ..)
    · exact (State.notices_trunks ..).trans (State.place_trunks_congr .mute rfl rfl)
    · exact State.onlyNotices_after (State.onlyNotices_then a.onlyNotices_entersHeld (State.onlyNotices_place _ _ _)) (State.onlyNotices_notices _ _)
  · obtain ⟨channel, rest, record⟩ := State.entersHeld_spec (s := a) (c := c) (u := (a.entersHeld c).notices (a.heldNotices c x))
      (by simp) (by simp) (by simp)
    refine ⟨_, done (State.openDone_held (s := a) muted below), channel, rest, record, State.notices_stb .., State.notices_trunks .., ?_⟩
    exact State.onlyNotices_after a.onlyNotices_entersHeld (State.onlyNotices_notices _ _)
  · obtain ⟨channel, rest, record⟩ := State.entersHeld_spec (s := a) (c := c)
      (u := ((a.entersHeld c).notices (a.heldNotices c x)).place x .unmute) (by simp) (by simp) (by simp)
    have quiet : ((a.entersHeld c).notices (a.heldNotices c x)).unsent x = none := by
      rw [State.unsent, State.tpc, State.notices_trunks]
      exact (s.afterDelivery_unsent x).trans unsent
    refine ⟨_, done ((State.openDone_unmute (s := a) muted above).trans (State.placeUnmute_eq_place (by simp [quiet]) c)), channel, rest, record,
      ?_, ?_, ?_⟩
    · exact (State.place_stb ..).trans (State.notices_stb ..)
    · exact State.place_trunks_congr .unmute (State.notices_trunks ..) (by rw [State.seatRec, State.notices_stb]; rfl)
    · exact State.onlyNotices_then (State.onlyNotices_after a.onlyNotices_entersHeld (State.onlyNotices_notices _ _)) (State.onlyNotices_place _ _ _)

/-- Settles O42. -/
theorem offerAndIndicationComplete : Obligations.OfferAndIndicationComplete := by
  unfold Obligations.OfferAndIndicationComplete
  intro x result s a
  have next : ∀ {u v : State}, u = v → (Host.Outcome.next u : Host.Outcome State Fault Refusal) = .next v := fun h => by rw [h]
  have settled : ∀ {u v w : State}, u = v.settle → v = w → (Host.Outcome.next u : Host.Outcome State Fault Refusal) = .next w.settle :=
    fun h h' => by rw [h, h']
  refine ⟨fun nothing => ⟨?_, ?_, ?_⟩, fun awaiting => ?_, fun cmd holding awaiting kind => ?_, fun awaiting spent => ?_,
    fun e awaiting entry offered fresh => ⟨?_, fun i c index chan state => ?_⟩⟩
  · exact next (State.takeAck_of_none nothing _ _ _)
  · exact next (State.takeAck_of_none nothing _ _ _)
  · exact next (State.takeAck_of_none nothing _ _ _)
  · exact next (State.takeAck_of_awaiting awaiting rfl result 0)
  · rcases kind with rfl | rfl | rfl | rfl <;> exact next (State.takeAck_of_awaiting awaiting rfl result 0)
  · refine settled (State.takeAck_of_awaiting awaiting rfl result 0) ?_
    show a.offerCompleted x result = a
    have entry : a.entryOf x = s.entryOf x := rfl
    unfold State.offerCompleted
    rw [entry]
    split
    · rename_i e found
      rcases spent e found with waiting | started
      · simp only [waiting]
      · obtain ⟨n, deadline⟩ := Option.ne_none_iff_exists'.mp started
        cases e.state <;> simp only [deadline]
    · rfl
  · refine settled (State.takeAck_of_awaiting awaiting rfl .done 0) ?_
    show a.offerCompleted x .done = _
    have entry' : a.entryOf x = some e := entry
    simp only [State.offerCompleted, entry', offered, fresh]
    rfl
  · have entry' : a.entryOf x = some e := entry
    have rejected : a.offerCompleted x .rejected = a.endOffer x .rejected .rejected false := by
      simp only [State.offerCompleted, entry', offered, fresh]
    have run := State.takeAck_of_awaiting awaiting (answers := fun cmd => cmd == .offer) rfl .rejected 0
    obtain ⟨cleared, others, far, trunks, stb, slm, fmx, told⟩ := State.freed_of_endOffer (s := a) entry offered index chan state .rejected .rejected
      false
    obtain ⟨j, index', erased⟩ := State.entryOf_index entry
    obtain rfl : i = j := Option.some.inj (index.symm.trans index')
    refine ⟨a.offerCompleted x .rejected, next run, ?_⟩
    rw [rejected, ← erased]
    exact ⟨cleared, others, far, trunks, stb, slm, fmx, told⟩

end Sys2Proof.Proofs
end

section
/-! SUPPORT. What no handling of a seat's event and no promotion changes: the ports but for their command queues, and the batch scope. Each operation
of the floor says so by one equation, and `simp` composes them. -/

namespace Sys2Proof.Machine

/-- The ports without their command queues, and the batch scope. -/
def State.backdrop (s : State) : Vector Tpc 4 × Option Nat := (s.trunks.map fun p => { p with queue := [] }, s.mge.batch)

section
variable {s u : State}

/-- Of a port with the same backdrop only the command queue may differ. -/
theorem State.tpc_of_backdrop (h : u.backdrop = s.backdrop) (t : Fin 4) : u.tpc t = { s.tpc t with queue := (u.tpc t).queue } := by
  have ports : ({ u.tpc t with queue := [] } : Tpc) = { s.tpc t with queue := [] } := by
    have entries := congrArg (fun v : Vector Tpc 4 => vget v t) (congrArg Prod.fst h)
    simpa only [State.backdrop, State.tpc, vget_map] using entries
  calc u.tpc t = { ({ u.tpc t with queue := [] } : Tpc) with queue := (u.tpc t).queue } := rfl
    _ = { s.tpc t with queue := (u.tpc t).queue } := by rw [ports]

theorem State.link_of_backdrop (h : u.backdrop = s.backdrop) (t : Fin 4) : (u.tpc t).link = (s.tpc t).link := by
  rw [State.tpc_of_backdrop h]

theorem State.batch_of_backdrop (h : u.backdrop = s.backdrop) : u.mge.batch = s.mge.batch := congrArg Prod.snd h

theorem State.backdrop_congr (trunks : u.trunks = s.trunks) (batch : u.mge.batch = s.mge.batch) : u.backdrop = s.backdrop := by
  simp only [State.backdrop, trunks, batch]

/-- Operations that keep the backdrop, over a list. -/
theorem State.backdrop_foldl {α : Type} {f : State → α → State} (keeps : ∀ s x, (f s x).backdrop = s.backdrop) (l : List α) (s : State) :
    (l.foldl f s).backdrop = s.backdrop := by
  induction l generalizing s with
  | nil => rfl
  | cons x l ih => rw [List.foldl_cons, ih, keeps]

theorem State.backdrop_ite {P : Prop} [Decidable P] {a b : State} (ha : a.backdrop = s.backdrop) (hb : b.backdrop = s.backdrop) :
    (if P then a else b).backdrop = s.backdrop := by
  split <;> assumption

end

/-! ### Updates of one block -/

section
variable (s : State) (x : Seat) (c : Fin 12)

@[simp] theorem State.modFar_backdrop (f : Far → Far) : (s.modFar f).backdrop = s.backdrop := rfl
@[simp] theorem State.modSeat_backdrop (f : SeatRec → SeatRec) : (s.modSeat x f).backdrop = s.backdrop := rfl
@[simp] theorem State.modChan_backdrop (f : Channel → Channel) : (s.modChan c f).backdrop = s.backdrop := rfl
@[simp] theorem State.modSlm_backdrop (f : SlmChan → SlmChan) : (s.modSlm c f).backdrop = s.backdrop := rfl
@[simp] theorem State.setFlag_backdrop (g : Flag) : (s.setFlag g).backdrop = s.backdrop := rfl
@[simp] theorem State.trigger_backdrop : s.trigger.backdrop = s.backdrop := rfl
@[simp] theorem State.clearChan_backdrop : (s.clearChan c).backdrop = s.backdrop := rfl
@[simp] theorem State.abortWindow_backdrop : (s.abortWindow c).backdrop = s.backdrop := rfl
@[simp] theorem State.setUpAudio_backdrop : (s.setUpAudio c).backdrop = s.backdrop := rfl
@[simp] theorem State.recomputeHold_backdrop : s.recomputeHold.backdrop = s.backdrop := rfl
@[simp] theorem State.modEntry_backdrop (f : Entry → Entry) : (s.modEntry x f).backdrop = s.backdrop := rfl

theorem State.modMge_backdrop (f : Mge → Mge) (batch : (f s.mge).batch = s.mge.batch) : (s.modMge f).backdrop = s.backdrop :=
  State.backdrop_congr rfl batch

@[simp] theorem State.notify_backdrop (n : Notice) : (s.notify n).backdrop = s.backdrop :=
  State.backdrop_congr (s.notify_trunks n) (s.notify_batch n)

@[simp] theorem State.setAvailability_backdrop (a : Availability) : (s.setAvailability x a).backdrop = s.backdrop :=
  State.backdrop_ite rfl (by simp)

/-! ### Commands placed (R31) -/

@[simp] theorem State.placeReport_backdrop (cmd : Cmd) : (s.placeReport x cmd).1.backdrop = s.backdrop := by
  unfold State.placeReport
  split
  · refine Prod.ext (vget_ext fun t => ?_) rfl
    simp only [State.backdrop, State.modTpc, State.tpc, vget_map, vget_vset]
    split
    · rename_i same
      rw [same]
    · rfl
  · rfl

@[simp] theorem State.place_backdrop (cmd : Cmd) : (s.place x cmd).backdrop = s.backdrop := s.placeReport_backdrop x cmd

/-! ### Channels freed and closed (R60, R62, R63) -/

@[simp] theorem State.notifyChan_backdrop (n : Seat → Notice) : (s.notifyChan c n).backdrop = s.backdrop := by
  unfold State.notifyChan
  split <;> simp

@[simp] theorem State.notifyClose_backdrop (cause : CloseCause) : (s.notifyClose c cause).backdrop = s.backdrop := s.notifyChan_backdrop c _

@[simp] theorem State.addClock_backdrop : (s.addClock c).backdrop = s.backdrop := by
  unfold State.addClock
  split <;> simp

@[simp] theorem State.countGrant_backdrop : (s.countGrant c).backdrop = s.backdrop := by
  unfold State.countGrant
  split <;> simp

@[simp] theorem State.startWindow_backdrop : (s.startWindow c).backdrop = s.backdrop := State.backdrop_ite (by simp) rfl

@[simp] theorem State.freeChannel_backdrop (cause : CloseCause) : (s.freeChannel c cause).backdrop = s.backdrop := by
  unfold State.freeChannel
  split <;> simp

@[simp] theorem State.handover_backdrop : (s.handover c x).backdrop = s.backdrop := by simp [State.handover]

/-- The end of a close, through every close it ends in turn (R64 row 8). -/
@[simp] theorem State.endCloseN_backdrop (n : Nat) : (s.endCloseN n c).backdrop = s.backdrop := by
  induction n generalizing s c with
  | zero => rfl
  | succ n ih =>
    unfold State.endCloseN
    split
    · simp
    · split
      · dsimp only
        split
        · split <;> simp [ih]
        · simp
      · simp

@[simp] theorem State.endClose_backdrop : (s.endClose c).backdrop = s.backdrop := s.endCloseN_backdrop c 12

@[simp] theorem State.placeOpen_backdrop : (s.placeOpen c x).backdrop = s.backdrop := by
  unfold State.placeOpen
  dsimp only
  split
  · split <;> simp
  · simp

@[simp] theorem State.enterClosing_backdrop (cause : CloseCause) : (s.enterClosing c cause).backdrop = s.backdrop := by
  unfold State.enterClosing
  dsimp only
  split <;> simp

/-! ### The list and its offers (R74, R78, R82) -/

@[simp] theorem State.listRemove_backdrop (cause : RemovalCause) : (s.listRemove x cause).backdrop = s.backdrop := by
  unfold State.listRemove
  split
  · exact State.backdrop_ite (by simp) (by simp)
  · rfl

@[simp] theorem State.endOffer_backdrop (removal : RemovalCause) (cause : CloseCause) (withdraw : Bool) :
    (s.endOffer x removal cause withdraw).backdrop = s.backdrop := by
  have before : (if withdraw = true then (s.listRemove x removal).place x .withdraw else s.listRemove x removal).backdrop = s.backdrop :=
    State.backdrop_ite (by simp) (by simp)
  unfold State.endOffer
  dsimp only
  split
  · rw [State.freeChannel_backdrop, before]
  · exact before

@[simp] theorem State.closeRequest_backdrop (cause : CloseCause) : (s.closeRequest c cause).backdrop = s.backdrop := by
  unfold State.closeRequest
  split
  · rfl
  · rfl
  · split <;> simp
  · split
    · exact State.backdrop_ite (by simp) (by simp)
    · simp
  · simp
  · simp

@[simp] theorem State.dropSuccession_backdrop : (s.dropSuccession x).backdrop = s.backdrop := by
  unfold State.dropSuccession
  split <;> simp

@[simp] theorem State.insertAt_backdrop (origin : Origin) (i : Nat) : (s.insertAt x origin i).backdrop = s.backdrop :=
  State.backdrop_ite (by simp) (by simp)

/-- A request refused and counted (R76, R102). -/
@[simp] theorem State.denyRequest_backdrop : (s.denyRequest x).backdrop = s.backdrop :=
  (State.modMge_backdrop _ _ rfl).trans (s.place_backdrop x .refused)

@[simp] theorem State.insertRequest_backdrop (origin : Origin) : (s.insertRequest x origin).backdrop = s.backdrop :=
  State.backdrop_ite (s.denyRequest_backdrop x) (by simp)

@[simp] theorem State.allocate_backdrop (cause : OpeningCause) : (s.allocate x cause).backdrop = s.backdrop := by
  unfold State.allocate
  split <;> simp

@[simp] theorem State.makeOffer_backdrop : (s.makeOffer x).backdrop = s.backdrop := by
  unfold State.makeOffer
  split <;> simp

@[simp] theorem State.acceptOffer_backdrop : (s.acceptOffer x).backdrop = s.backdrop := by
  unfold State.acceptOffer
  dsimp only
  split <;> simp

/-! ### Promotion (R109 to R111) -/

@[simp] theorem State.promote_backdrop : (s.promote x).backdrop = s.backdrop := State.backdrop_ite (by simp) (by simp)

@[simp] theorem State.promoteIf_backdrop : (s.promoteIf x).backdrop = s.backdrop := State.backdrop_ite (by simp) rfl

@[simp] theorem State.runPromotion_backdrop : s.runPromotion.backdrop = s.backdrop :=
  State.backdrop_ite rfl (State.backdrop_foldl State.promoteIf_backdrop _ _)

@[simp] theorem State.settle_backdrop : s.settle.backdrop = s.backdrop := State.backdrop_ite (by simp) rfl

@[simp] theorem State.promoteNext_backdrop : s.promoteNext.backdrop = s.backdrop := by
  unfold State.promoteNext
  split <;> simp

/-! ### The hold level and list control (R117 to R132) -/

@[simp] theorem State.notifyHold_backdrop (o : Option Seat) (change : HoldChange) : (s.notifyHold o change).backdrop = s.backdrop :=
  s.notify_backdrop _

@[simp] theorem State.joinHold_backdrop : (s.joinHold x).backdrop = s.backdrop := by simp [State.joinHold]

@[simp] theorem State.leaveHold_backdrop : (s.leaveHold x).backdrop = s.backdrop := State.backdrop_ite (by simp) rfl

@[simp] theorem State.holdChannel_backdrop : (s.holdChannel c).backdrop = s.backdrop := by
  unfold State.holdChannel
  simp only [State.notifyChan_backdrop, State.abortWindow_backdrop]
  split <;> simp

@[simp] theorem State.riseAt_backdrop : (s.riseAt c).backdrop = s.backdrop := by
  refine State.backdrop_ite ?_ rfl
  split
  · split <;> simp
  · split
    · exact State.backdrop_ite (by simp) rfl
    · rfl
  all_goals rfl

@[simp] theorem State.rise_backdrop : s.rise.backdrop = s.backdrop := State.backdrop_foldl State.riseAt_backdrop _ _

@[simp] theorem State.resume_backdrop : (s.resume c).backdrop = s.backdrop := State.backdrop_ite (by simp) (by simp)

@[simp] theorem State.placeUnmute_backdrop : (s.placeUnmute c x).backdrop = s.backdrop := by
  have placed := s.placeReport_backdrop x .unmute
  exact State.backdrop_ite ((State.resume_backdrop _ c).trans placed) placed

@[simp] theorem State.fallAt_backdrop : (s.fallAt c).backdrop = s.backdrop := by
  unfold State.fallAt
  split
  · exact State.backdrop_ite rfl (by simp)
  · rfl

@[simp] theorem State.fall_backdrop : s.fall.backdrop = s.backdrop :=
  (State.trigger_backdrop _).trans (State.backdrop_foldl State.fallAt_backdrop _ _)

@[simp] theorem State.holdChanged_backdrop (before : Fin 8) : (s.holdChanged before).backdrop = s.backdrop :=
  State.backdrop_ite (by simp) (State.backdrop_ite (by simp) rfl)

@[simp] theorem State.clearHolder_backdrop : (s.clearHolder x).backdrop = s.backdrop := State.backdrop_ite (by simp [State.notifyList]) rfl

/-! ### Seat events (R5, R29) -/

theorem State.replaceOr_backdrop {fallBack : State → State} (h : (fallBack s).backdrop = s.backdrop) :
    (s.replaceOr x fallBack).backdrop = s.backdrop := by
  unfold State.replaceOr
  split
  · simp [State.replaceChan]
  · exact h

@[simp] theorem State.directRequest_backdrop : (s.directRequest x).backdrop = s.backdrop := by
  refine State.backdrop_ite (by simp) (State.backdrop_ite (State.backdrop_ite (by simp) (by simp)) ?_)
  split
  · simp
  · simp
  · exact State.backdrop_ite (by simp) (s.replaceOr_backdrop x (by simp))

@[simp] theorem State.chairBypass_backdrop : (s.chairBypass x).backdrop = s.backdrop :=
  State.backdrop_ite (by simp) (State.backdrop_ite (by simp) (s.replaceOr_backdrop x (by simp)))

@[simp] theorem State.newRequest_backdrop : (s.newRequest x).backdrop = s.backdrop := by
  refine State.backdrop_ite (by simp) ?_
  split
  · simp
  · simp
  · split <;> simp

@[simp] theorem State.closeSeat_backdrop (cause : CloseCause) : (s.closeSeat x cause).backdrop = s.backdrop := by
  unfold State.closeSeat
  split <;> simp

@[simp] theorem State.micPressed_backdrop (arg : Byte) : (s.micPressed arg x).backdrop = s.backdrop := by
  unfold State.micPressed
  split
  case h_1 => exact State.backdrop_ite (by simp) (by simp)
  case h_2 => exact State.backdrop_ite (by simp) rfl
  case h_3 => exact State.backdrop_ite (by simp) (by simp)
  all_goals simp

@[simp] theorem State.confirmed_backdrop : (s.confirmed x).backdrop = s.backdrop := by
  unfold State.confirmed
  split <;> simp

@[simp] theorem State.priorityPressed_backdrop : (s.priorityPressed x).backdrop = s.backdrop := by
  have joined : (if (s.joinHold x).floorState x = .idle then (s.joinHold x).chairBypass x else s.joinHold x).backdrop = s.backdrop :=
    State.backdrop_ite (by simp) (by simp)
  exact State.backdrop_ite rfl (State.backdrop_ite (by rw [State.rise_backdrop, joined]) joined)

@[simp] theorem State.priorityReleased_backdrop : (s.priorityReleased x).backdrop = s.backdrop := by simp [State.priorityReleased]

@[simp] theorem State.clearEntry_backdrop : (s.clearEntry x).backdrop = s.backdrop := by
  unfold State.clearEntry
  split
  · split <;> simp
  · rfl

@[simp] theorem State.clearWholeList_backdrop : s.clearWholeList.backdrop = s.backdrop := State.backdrop_foldl State.clearEntry_backdrop _ _

@[simp] theorem State.chairNexted_backdrop : (s.chairNexted x).backdrop = s.backdrop := State.backdrop_ite (by simp) (by simp)

@[simp] theorem State.chairCleared_backdrop : (s.chairCleared x).backdrop = s.backdrop := State.backdrop_ite (by simp) (by simp)

@[simp] theorem State.listTaken_backdrop : (s.listTaken x).backdrop = s.backdrop :=
  State.backdrop_ite (by simp) (State.backdrop_ite (by simp) (State.backdrop_ite (by simp [State.notifyList]) (by simp)))

@[simp] theorem State.helloFloor_backdrop : (s.helloFloor x).backdrop = s.backdrop := by
  unfold State.helloFloor
  split <;> simp

@[simp] theorem State.helloed_backdrop (arg : Byte) (wasPresent : Bool) : (s.helloed arg wasPresent x).backdrop = s.backdrop :=
  State.backdrop_ite (by simp [State.listGiven]) (by simp)

theorem State.chairEvent_backdrop {act : State → State} (h : (act s).backdrop = s.backdrop) : (s.chairEvent x act).backdrop = s.backdrop :=
  State.backdrop_ite h (by simp)

/-- Whatever an accepted event does, it leaves the ports but for their queues (R29). -/
@[simp] theorem State.dispatch_backdrop (kind : Option EventKind) (arg : Byte) (wasPresent : Bool) :
    (s.dispatch kind arg wasPresent x).backdrop = s.backdrop := by
  unfold State.dispatch
  split
  case h_1 => simp
  case h_2 => simp
  case h_3 => simp
  case h_10 => simp
  all_goals exact s.chairEvent_backdrop x (by simp [State.listGiven])

end

end Sys2Proof.Machine
end

section
/-! PROOF. The frame runs of a trunk link and what a good frame of an UP trunk carries (O22). -/

namespace Sys2Proof.Machine

/-! ### Changes of one port -/

/-- Two changes of one port in turn. -/
theorem State.modTpc_modTpc (s : State) (t : Fin 4) (f g : Tpc → Tpc) : (s.modTpc t f).modTpc t g = s.modTpc t fun p => g (f p) := by
  simp [State.modTpc, State.tpc]

/-! ### Events of a good frame (R26 to R29) -/

theorem State.accept_backdrop (s : State) (x : Seat) (serial : Fin 16) : (s.accept x serial).backdrop = s.backdrop := by simp [State.accept]

/-- An echo leaves the links. -/
theorem State.echo_link (s : State) (x : Seat) (serial : Fin 16) (k : Fin 4) : ((s.echo x serial).tpc k).link = (s.tpc k).link := by
  simp only [State.echo, State.modTpc_tpc]
  split <;> rfl

/-- No event changes a link. -/
theorem State.takeEvent_link (s : State) (t : Fin 4) (position : Fin 128) (serial : Fin 16) (kind : Option EventKind) (arg : Byte) (k : Fin 4) :
    ((s.takeEvent t position serial kind arg).tpc k).link = (s.tpc k).link := by
  unfold State.takeEvent
  split
  · rfl
  · rename_i x _
    dsimp only
    split
    · exact s.echo_link x serial k
    · refine (State.link_of_backdrop ?_ k).trans (s.echo_link x serial k)
      rw [State.settle_backdrop, State.dispatch_backdrop, State.accept_backdrop]

/-- What an event position leaves of an UP trunk's link and of the start-up hold. -/
theorem State.takeUpEvent_up {s : State} {t : Fin 4} (running : s.running = true) (up : (s.tpc t).link = .up) (event : Option UpEvent) :
    (s.takeUpEvent t event).running = true ∧ ((s.takeUpEvent t event).tpc t).link = .up := by
  obtain ⟨-, -, -, -, hold, -⟩ := (s.takeUpEvent_moves (o := false) t event).frame
  refine ⟨by rw [State.running, hold]; exact running, ?_⟩
  cases event with
  | none => exact up
  | some e => exact (s.takeEvent_link ..).trans up

/-- An event position does what the statements say it does (R26 to R29). -/
theorem State.takeUpEvent_eventPosition {s : State} {t : Fin 4} (running : s.running = true) (up : (s.tpc t).link = .up)
    (event : Option UpEvent) : s.eventPosition t event (s.takeUpEvent t event) := by
  cases event with
  | none => rfl
  | some e =>
    unfold State.eventPosition State.takeUpEvent
    cases kind : eventKindOfCode e.kind.val with
    | some k =>
      simp only [kind, exec_seatEventOf, State.seatEvent, running, up, and_self, if_true]
    | none =>
      cases seat : seatOfPosition t e.position with
      | none => simp only [kind, State.takeEvent, seat]
      | some x =>
        simp only [kind, State.takeEvent, seat]
        split <;> rfl

/-! ### The attempt in flight (R34 to R36) -/

/-- The command of a completion completes the command that awaits it (R35). -/
theorem exec_completionOf {s : State} {x : Seat} {cmd : Cmd} {result : AckResult} {data : Byte} {i : Instr} (awaiting : s.awaiting x = some cmd)
    (h : completionOf cmd x result data = some i) : exec i s = .next ((s.afterDelivery x).completed x cmd result data).settle := by
  have ack : ∀ (answers : Cmd → Bool) (d : Byte), answers cmd = true → (s.takeAck x answers result d)
      = ((s.afterDelivery x).completed x cmd result d).settle := fun answers d matching => State.takeAck_of_awaiting awaiting matching result d
  cases cmd with
  | allOff => exact nomatch h
  | openMic k m => cases h; exact congrArg Host.Outcome.next (ack Cmd.isOpen 0 rfl)
  | close => cases h; exact congrArg Host.Outcome.next (ack (fun c => c == .close) 0 rfl)
  | mute => cases h; exact congrArg Host.Outcome.next (ack (fun c => c == .mute) 0 rfl)
  | unmute => cases h; exact congrArg Host.Outcome.next (ack (fun c => c == .unmute) 0 rfl)
  | offer => cases h; exact congrArg Host.Outcome.next (ack (fun c => c == .offer) 0 rfl)
  | withdraw => cases h; exact congrArg Host.Outcome.next (ack (fun c => c == .withdraw) 0 rfl)
  | probe => cases h; exact congrArg Host.Outcome.next (ack (fun c => c == .probe) data rfl)
  | queued | refused | warn | listState => cases h; exact congrArg Host.Outcome.next (ack Cmd.isIndication 0 rfl)

section
variable {s : State} {t : Fin 4} {a : InFlight} {answered : Byte} {ack : Option UpAck}

/-- A command to be retried, and one that a later frame may still answer, wait (R34). -/
theorem State.settleAttempt_waits (flight : (s.tpc t).inFlight = some a)
    (waits : a.status = .retry ∨ (a.frame ≠ answered ∧ (s.tpc t).age a.frame ≤ (s.tpc t).age answered)) :
    s.settleAttempt t answered ack = s := by
  unfold State.settleAttempt
  rw [flight]
  dsimp only
  rcases waits with retry | ⟨other, early⟩
  · exact if_pos retry
  · rw [if_neg other, if_neg (not_lt.mpr early), ite_self]

/-- The acknowledgement of the command's position in the answer to its frame completes it (R34, R35). -/
theorem State.settleAttempt_completes {k : UpAck} (flight : (s.tpc t).inFlight = some a) (sent : a.status = .sent) (frame : a.frame = answered)
    (acknowledged : ack = some k) (position : k.position.val = posNumber a.pos) :
    s.settleAttempt t answered ack = (s.afterDelivery ⟨t, a.pos⟩).completed ⟨t, a.pos⟩ a.cmd k.result k.data := by
  simp only [State.settleAttempt, flight, sent, frame, acknowledged, position, reduceCtorEq, if_false, if_true]
  rfl

/-- Any other answer to its frame or to a later one fails the attempt (R34). -/
theorem State.settleAttempt_fails (flight : (s.tpc t).inFlight = some a) (sent : a.status = .sent)
    (other : (a.frame = answered ∧ ∀ k, ack = some k → k.position.val ≠ posNumber a.pos)
      ∨ (a.frame ≠ answered ∧ (s.tpc t).age answered < (s.tpc t).age a.frame)) : s.settleAttempt t answered ack = s.attemptFailed t a := by
  simp only [State.settleAttempt, flight, sent, reduceCtorEq, if_false]
  rcases other with ⟨frame, unanswered⟩ | ⟨frame, late⟩
  · rw [if_pos frame]
    split
    · rename_i k
      exact if_neg (unanswered k rfl)
    · rfl
  · rw [if_neg frame, if_pos late]

/-- A command sent on an UP trunk awaits its acknowledgement (R34). -/
theorem State.awaiting_of_sent (running : s.running = true) (up : (s.tpc t).link = .up) (flight : (s.tpc t).inFlight = some a)
    (sent : a.status = .sent) : s.awaiting ⟨t, a.pos⟩ = some a.cmd := by
  simp [State.awaiting, flight, running, up, sent]

theorem State.openAttempt_of_sent (running : s.running = true) (up : (s.tpc t).link = .up) (flight : (s.tpc t).inFlight = some a)
    (sent : a.status = .sent) : s.openAttempt t = some a := by
  simp [State.openAttempt, flight, running, up, sent]

end

/-! ### Talk slots (R30, R144, R152) -/

/-- One talk slot of a frame handed to the channel that holds it (R30). -/
def State.handAt (t : Fin 4) (f : List Byte) (s : State) (k : Fin 6) : State :=
  match s.slotHolder none t k with
  | some c => s.handSlot c (upSlot f k)
  | none => s

/-- The six talk slots of a frame handed over. -/
def State.slotsHanded (t : Fin 4) (f : List Byte) (s : State) : State := allSlots.foldl (State.handAt t f) s

/-- The talk slots of a frame: handed over, then the windows this fills, in ascending channel number (R30, R147). -/
theorem State.takeSlots_eq (s : State) (t : Fin 4) (f : List Byte) : s.takeSlots t f
    = allChans.foldl (fun w c => if (w.chan c).trunk = some t then w.finishWindow c else w) (s.slotsHanded t f) := rfl

section
variable {s : State} {t : Fin 4} {f : List Byte} {c : Fin 12} {k : Fin 6}

theorem State.slotHolder_slot (holds : s.slotHolder none t k = some c) : (s.chan c).trunk = some t ∧ (s.chan c).slot = some k := by
  have holder := List.find?_some holds
  simp only [Bool.and_eq_true, decide_eq_true_eq] at holder
  exact ⟨holder.1.2, holder.2⟩

/-- Handing slots over changes only latest samples and windows. -/
theorem State.handAt_eq (s : State) (t : Fin 4) (f : List Byte) (k : Fin 6) : s.handAt t f k
    = { s with slm := (s.handAt t f k).slm, fmx := { s.fmx with chans := (s.handAt t f k).fmx.chans } } := by
  unfold State.handAt
  split <;> rfl

theorem State.handAt_slotHolder (s : State) (k j : Fin 6) : (s.handAt t f k).slotHolder none t j = s.slotHolder none t j := by
  rw [State.handAt_eq]
  rfl

theorem State.handedOver_eq (l : List (Fin 6)) (s : State) : l.foldl (State.handAt t f) s
    = { s with slm := (l.foldl (State.handAt t f) s).slm, fmx := { s.fmx with chans := (l.foldl (State.handAt t f) s).fmx.chans } } := by
  induction l generalizing s with
  | nil => rfl
  | cons k l ih =>
    rw [List.foldl_cons, ih, s.handAt_eq]

/-- A slot that is not the channel's leaves it as it is. -/
theorem State.handAt_other (other : s.slotHolder none t k ≠ some c) :
    (s.handAt t f k).fmxOf c = s.fmxOf c ∧ (s.handAt t f k).slmOf c = s.slmOf c := by
  unfold State.handAt
  split
  · rename_i d holds
    have apart : d ≠ c := fun e => other (e ▸ holds)
    simp [State.handSlot, apart]
  · exact ⟨rfl, rfl⟩

/-- The channel's own slot is FMX's latest sample and SLM's next frame of a running window (R144, R152). -/
theorem State.handAt_self (holds : s.slotHolder none t k = some c) :
    (s.handAt t f k).fmxOf c = { s.fmxOf c with latest := match upSlot f k with | some w => w.toInt | none => 0, fresh := true }
      ∧ (s.handAt t f k).slmOf c = (s.slmOf c).takeFrame (upSlot f k) := by
  simp only [State.handAt, holds, State.handSlot]
  exact ⟨vget_vset_self _ _ _, vget_vset_self _ _ _⟩

theorem State.handedOver_other (l : List (Fin 6)) (s : State) (other : ∀ k ∈ l, s.slotHolder none t k ≠ some c) :
    (l.foldl (State.handAt t f) s).fmxOf c = s.fmxOf c ∧ (l.foldl (State.handAt t f) s).slmOf c = s.slmOf c := by
  induction l generalizing s with
  | nil => exact ⟨rfl, rfl⟩
  | cons k l ih =>
    obtain ⟨fmx, slm⟩ := State.handAt_other (f := f) (other k (by simp))
    obtain ⟨fmx', slm'⟩ := ih (s.handAt t f k) fun j hj => by
      rw [State.handAt_slotHolder]
      exact other j (by simp [hj])
    exact ⟨fmx'.trans fmx, slm'.trans slm⟩

/-- Handing the six slots over changes only latest samples and windows. -/
theorem State.slotsHanded_eq (s : State) (t : Fin 4) (f : List Byte) : s.slotsHanded t f
    = { s with slm := (s.slotsHanded t f).slm, fmx := { s.fmx with chans := (s.slotsHanded t f).fmx.chans } } := by
  unfold State.slotsHanded
  exact State.handedOver_eq allSlots s

/-- A channel that holds no slot of the trunk keeps its sample and its window. -/
theorem State.slotsHanded_other (other : ∀ k, s.slotHolder none t k ≠ some c) :
    (s.slotsHanded t f).fmxOf c = s.fmxOf c ∧ (s.slotsHanded t f).slmOf c = s.slmOf c :=
  State.handedOver_other allSlots s fun k _ => other k

/-- A channel's records change by its own slot alone: no other of the six is its slot. -/
theorem State.slotsHanded_self (holds : s.slotHolder none t k = some c) :
    (s.slotsHanded t f).fmxOf c = { s.fmxOf c with latest := match upSlot f k with | some w => w.toInt | none => 0, fresh := true }
      ∧ (s.slotsHanded t f).slmOf c = (s.slmOf c).takeFrame (upSlot f k) := by
  have all : k ∈ allSlots := List.mem_finRange k
  have once : allSlots.Nodup := by decide
  have only : ∀ a : State, a.slotHolder none t = s.slotHolder none t → ∀ j, j ≠ k → a.slotHolder none t j ≠ some c :=
      fun a same j apart other => by
    rw [same] at other
    exact apart (Option.some.inj ((State.slotHolder_slot other).2.symm.trans (State.slotHolder_slot holds).2))
  obtain ⟨before, after, split⟩ := List.append_of_mem all
  rw [split, List.nodup_append, List.nodup_cons] at once
  obtain ⟨-, ⟨notAfter, -⟩, apart⟩ := once
  have kept : (before.foldl (State.handAt t f) s).slotHolder none t = s.slotHolder none t := by
    rw [State.handedOver_eq]
    rfl
  obtain ⟨fmx, slm⟩ := State.handedOver_other (f := f) before s fun j hj => only s rfl j (apart j hj k (by simp))
  obtain ⟨fmx', slm'⟩ := State.handAt_self (f := f) ((congrFun kept k).trans holds)
  obtain ⟨fmx'', slm''⟩ := State.handedOver_other (t := t) (f := f) after ((before.foldl (State.handAt t f) s).handAt t f k) fun j hj =>
    only _ (by funext j; rw [State.handAt_slotHolder, kept]) j fun e => notAfter (e ▸ hj)
  rw [State.slotsHanded, split, List.foldl_append, List.foldl_cons, fmx'', slm'', fmx', slm', fmx, slm]
  exact ⟨rfl, rfl⟩

/-- A trunk to which no channel belongs has no slot to hand over and no window to fill. -/
theorem State.takeSlots_idle (idle : ∀ c, (s.chan c).trunk ≠ some t) : s.takeSlots t f = s := by
  have noHolder : ∀ k, s.slotHolder none t k = none := fun k => by
    cases holds : s.slotHolder none t k with
    | none => rfl
    | some c => exact absurd (State.slotHolder_slot holds).1 (idle c)
  have handed : s.slotsHanded t f = s := List.foldl_fixed' (fun k => by simp only [State.handAt, noHolder]) allSlots
  rw [State.takeSlots_eq, handed]
  exact List.foldl_fixed' (fun c => if_neg (idle c)) allChans

end

/-! ### Good and bad frame times (R23, R24) -/

section
variable {s : State} {t : Fin 4} {f : List Byte}

/-- A frame time of a good frame. -/
theorem exec_trunkFrameGood (running : s.running = true) (good : (s.tpc t).goodFrame f = true) :
    exec (.trunkFrameGood t f) s = .next (s.trunkGood t f) := by
  have received : s.receiveTrunk t f = s.trunkGood t f := if_pos good
  exact congrArg Host.Outcome.next ((if_pos running).trans received)

/-- TRUNK_UP where the event is due. -/
theorem exec_trunkUp (running : s.running = true) (good : (s.tpc t).goodFrame f = true) (training : (s.tpc t).link = .training)
    (run : (s.tpc t).goodRun = 63) : exec (.trunkUp t f) s = .next (s.trunkGood t f) :=
  congrArg Host.Outcome.next (if_pos (by simp [State.trunkAboutUp, running, good, training, run, Config.trunkUpRun]))

/-- TRUNK_UP where it is not (log entry 1). -/
theorem exec_trunkUp_early (run : (s.tpc t).goodRun + 1 < 64) : exec (.trunkUp t f) s = .next s := by
  have short : (s.tpc t).goodRun + 1 ≠ 64 := by omega
  exact congrArg Host.Outcome.next (if_neg (by simp [State.trunkAboutUp, Config.trunkUpRun, short]))

/-- A frame time of a bad frame or of none. -/
theorem exec_trunkFrameMissing (running : s.running = true) : exec (.trunkFrameMissing t) s = .next (s.trunkBad t).settle :=
  congrArg Host.Outcome.next (if_pos running)

theorem State.trunkBad_early {link : LinkState} (short : (s.tpc t).badRun + 1 < 8) : s.trunkAboutDown t link = false := by
  have early : (s.tpc t).badRun + 1 ≠ 8 := by omega
  simp [State.trunkAboutDown, Config.badRunLimit, early]

/-- A TRAINING trunk counts a bad frame time and loses its good run (R24). -/
theorem State.trunkBad_training (training : (s.tpc t).link = .training) (short : (s.tpc t).badRun + 1 < 8) :
    s.trunkBad t = s.modTpc t fun p => { p with goodRun := 0, badRun := p.badRun + 1 } := by
  simp only [State.trunkBad, training, Config.badRunLimit, Nat.not_le.mpr short, if_false]

/-- An UP trunk counts a bad frame time (R24). -/
theorem State.trunkBad_up (up : (s.tpc t).link = .up) (short : (s.tpc t).badRun + 1 < 8) :
    s.trunkBad t = s.modTpc t fun p => { p with badRun := p.badRun + 1 } := by
  simp only [State.trunkBad, up, Config.badRunLimit, Nat.not_le.mpr short, if_false]

/-- The state in which a good frame of an UP trunk is handled: the frame answered, no bad run (R24). -/
def State.goodTime (s : State) (t : Fin 4) (f : List Byte) : State :=
  { s with trunks := vset s.trunks t { s.tpc t with lastAnswered := some (f.getD 1 0), badRun := 0 } }

theorem State.trunkGood_up (up : (s.tpc t).link = .up) : s.trunkGood t f = (s.goodTime t f).takeContents t f := by
  simp only [State.trunkGood, up, State.modTpc_modTpc]
  rfl

theorem State.goodTime_tpc : (s.goodTime t f).tpc t = { s.tpc t with lastAnswered := some (f.getD 1 0), badRun := 0 } :=
  vget_vset_self _ _ _

/-- A good frame of an UP trunk that carries nothing for the engine. -/
theorem State.takeContents_quiet (owed : s.noPromotionOwed) (first : upEventAt f 2 = none) (second : upEventAt f 5 = none)
    (empty : (s.tpc t).inFlight = none) (idle : ∀ c, (s.chan c).trunk ≠ some t) : s.takeContents t f = s := by
  have attempt : s.settleAttempt t (upAnswered f) (upAck f) = s := by simp only [State.settleAttempt, empty]
  simp only [State.takeContents, first, second, State.takeUpEvent, attempt, State.settle_eq s owed, State.takeSlots_idle idle]

end

end Sys2Proof.Machine

namespace Sys2Proof.Proofs

open Sys2Proof.Machine

/-- Settles O22: the link states in turn; a good frame of an UP trunk by the state each of its parts leaves. -/
theorem trunkFollowsFrameRuns : Obligations.TrunkFollowsFrameRuns := by
  unfold Obligations.TrunkFollowsFrameRuns
  refine ⟨fun s t f => rfl, fun s t f running good => ?_, fun s t f running bad => ?_, fun s t running training short => ?_,
    fun s t running training last => ?_, fun s t running up short => ?_, fun s t running off => ?_⟩
  · intro p
    rw [exec_trunkFrameGood running good]
    refine ⟨fun down => ?_, fun training short => ⟨exec_trunkUp_early short, ?_⟩, fun training last => ?_, fun held => ?_,
      fun up owed first second empty idle => ?_, fun up => ?_⟩
    · simp only [State.trunkGood, down, State.modTpc_modTpc]
      rfl
    · simp only [State.trunkGood, training, State.modTpc_modTpc, Config.trunkUpRun, Nat.not_le.mpr short, if_false]
      rfl
    · rw [exec_trunkUp running good training last]
      refine ⟨rfl, ?_⟩
      simp only [State.trunkGood, training, last, Config.trunkUpRun, State.trunkUp, State.modTpc_modTpc]
      rfl
    · simp only [State.trunkGood, held]
    · rw [State.trunkGood_up up, State.takeContents_quiet (s := s.goodTime t f) owed first second (by rw [State.goodTime_tpc]; exact empty) idle]
      rfl
    · have running' : (s.goodTime t f).running = true := running
      have up' : ((s.goodTime t f).tpc t).link = .up := by rw [State.goodTime_tpc]; exact up
      obtain ⟨first, first_eq⟩ : ∃ u, u = (s.goodTime t f).takeUpEvent t (upEventAt f 2) := ⟨_, rfl⟩
      obtain ⟨second, second_eq⟩ : ∃ u, u = first.takeUpEvent t (upEventAt f 5) := ⟨_, rfl⟩
      obtain ⟨running1, up1⟩ : first.running = true ∧ (first.tpc t).link = .up := first_eq ▸ State.takeUpEvent_up running' up' _
      obtain ⟨running2, up2⟩ : second.running = true ∧ (second.tpc t).link = .up := second_eq ▸ State.takeUpEvent_up running1 up1 _
      have events := State.takeUpEvent_eventPosition running' up' (upEventAt f 2)
      have events' := State.takeUpEvent_eventPosition running1 up1 (upEventAt f 5)
      rw [← first_eq] at events
      rw [← second_eq] at events'
      refine ⟨first, second, (second.settleAttempt t (f.getD 1 0) (upAck f)).settle,
        (second.settleAttempt t (f.getD 1 0) (upAck f)).settle.slotsHanded t f, events, events', fun empty => ?_, fun a flight => ?_,
        State.slotsHanded_eq _ t f, fun c k holds => ?_, fun c other => State.slotsHanded_other other, ?_⟩
      · simp only [State.settleAttempt, empty]
      · intro age
        refine ⟨fun waits => ?_, fun k i sent frame acknowledged position completion => ?_, fun sent fails => ?_⟩
        · rw [State.settleAttempt_waits flight waits]
        · rw [State.settleAttempt_completes flight sent frame acknowledged position]
          exact exec_completionOf (State.awaiting_of_sent running2 up2 flight sent) completion
        · rw [State.settleAttempt_fails flight sent fails]
          exact exec_attemptFailed (State.openAttempt_of_sent running2 up2 flight sent)
      · obtain ⟨fmx, slm⟩ := State.slotsHanded_self (f := f) holds
        refine ⟨fmx, fun still => ?_, fun n progress => ?_⟩
        · rw [slm, SlmChan.takeFrame, still]
        · rw [slm, SlmChan.takeFrame, progress]
          rfl
      · rw [State.trunkGood_up up, second_eq, first_eq]
        rfl
  · have received : s.receiveTrunk t f = (s.trunkBad t).settle := if_neg (by simp [bad])
    exact congrArg Host.Outcome.next ((if_pos running).trans (received.trans (if_pos running).symm))
  · rw [exec_trunkFrameMissing running]
    refine ⟨congrArg Host.Outcome.next (if_neg (by simp [State.trunkBad_early short])), ?_⟩
    rw [State.trunkBad_training training short]
    rfl
  · intro u
    have failed : s.trunkBad t = u := by
      simp only [State.trunkBad, training, last, Config.badRunLimit]
      rfl
    rw [exec_trunkFrameMissing running, failed]
    refine ⟨congrArg Host.Outcome.next ((if_pos ?_).trans failed), rfl⟩
    simp [State.trunkAboutDown, running, training, last, Config.badRunLimit]
  · rw [exec_trunkFrameMissing running]
    refine ⟨congrArg Host.Outcome.next (if_neg (by simp [State.trunkBad_early short])), ?_⟩
    rw [State.trunkBad_up up short]
    rfl
  · have ignored : s.trunkBad t = s := by rcases off with link | link <;> simp only [State.trunkBad, link]
    rw [exec_trunkFrameMissing running, ignored]

end Sys2Proof.Proofs
end

section
/-! PROOF. The teardown of a trunk (R46) at TRUNK_LINK_LOST (O23), and the trunk records (O47). -/

namespace Sys2Proof.Machine

/-! ### What the teardown of the channels keeps (R46 step 1) -/

/-- Channel `c` is in use by a seat of trunk `t`. -/
def State.seatedOn (s : State) (t : Fin 4) (c : Fin 12) : Prop := (s.chan c).state ≠ .free ∧ ∃ x, (s.chan c).seat = some x ∧ x.trunk = t

/-- `u` has the floor of `s` but for channels, open sequence and the promotion owed, and no channel in use by a seat of trunk `t` that was not so. -/
def State.thins (t : Fin 4) (s u : State) : Prop :=
  u.far = { s.far with channels := u.far.channels, openSeq := u.far.openSeq, promotionDeferred := u.far.promotionDeferred }
    ∧ ∀ c, u.seatedOn t c → s.seatedOn t c

section
variable {s u : State} {t : Fin 4}

theorem State.seatedOn_congr {c : Fin 12} (h : u.chan c = s.chan c) : u.seatedOn t c ↔ s.seatedOn t c := by rw [State.seatedOn, State.seatedOn, h]

theorem State.thins_refl (s : State) : s.thins t s := ⟨rfl, fun _ h => h⟩

theorem State.thins.trans {v : State} (h : State.thins t s u) (h' : State.thins t u v) : State.thins t s v := by
  obtain ⟨far, seated⟩ := h
  obtain ⟨far', seated'⟩ := h'
  exact ⟨by rw [far', far], fun c hc => seated c (seated' c hc)⟩

theorem State.thins_of_far (far : u.far = s.far) : s.thins t u :=
  ⟨by rw [far], fun _ => (State.seatedOn_congr (by rw [State.chan, far]; rfl)).mp⟩

/-- A change of the channels that seats nobody. -/
theorem State.thins_of_chan (far : u.far = { s.far with channels := u.far.channels })
    (kept : ∀ c, (u.chan c).seat = (s.chan c).seat ∧ ((s.chan c).state = .free → (u.chan c).state = .free)) : s.thins t u := by
  refine ⟨by rw [far], fun c ⟨busy, x, seat, trunk⟩ => ?_⟩
  obtain ⟨same, free⟩ := kept c
  exact ⟨fun h => busy (free h), x, same ▸ seat, trunk⟩

theorem State.thins_foldl {α : Type} {f : State → α → State} (hf : ∀ (s : State) x, s.thins t (f s x)) (l : List α) (s : State) :
    s.thins t (l.foldl f s) := by
  induction l generalizing s with
  | nil => exact s.thins_refl
  | cons x l ih => exact (hf s x).trans (ih _)

/-- A freed channel is in nobody's use, and no other comes into use. -/
theorem State.freeChannel_thins (s : State) (c : Fin 12) (cause : CloseCause) :
    s.thins t (s.freeChannel c cause) ∧ ¬ (s.freeChannel c cause).seatedOn t c := by
  by_cases free : (s.chan c).state = .free
  · have kept : s.freeChannel c cause = s := by simp only [State.freeChannel, free]
    rw [kept]
    exact ⟨s.thins_refl, fun ⟨busy, _⟩ => busy free⟩
  · obtain ⟨cleared, others, far, -⟩ := s.freeChannel_spec c cause free
    have unused : ¬ (s.freeChannel c cause).seatedOn t c := fun ⟨busy, _⟩ => busy (by rw [cleared]; rfl)
    refine ⟨⟨by rw [far], fun d seated => ?_⟩, unused⟩
    by_cases same : d = c
    · exact absurd (same ▸ seated) unused
    · exact (State.seatedOn_congr (others d same)).mp seated

theorem State.link_of_successorValid {c : Fin 12} {x : Seat} (h : s.successorValid c x = true) : (s.tpc x.trunk).link = .up := by
  simp only [State.successorValid, State.seatConditions, Bool.and_eq_true, decide_eq_true_eq] at h
  exact h.1.1.1.1.1

/-- A handover to a seat of another trunk. -/
theorem State.handover_thins {x : Seat} (other : x.trunk ≠ t) (s : State) (c : Fin 12) :
    s.thins t (s.handover c x) ∧ ¬ (s.handover c x).seatedOn t c := by
  have far := s.handover_far c x
  have taken : ((s.handover c x).chan c).seat = some x := by
    rw [State.chan, far]
    exact congrArg Channel.seat (s.modChan_chan_self c _)
  have unused : ¬ (s.handover c x).seatedOn t c := fun ⟨_, y, seat, trunk⟩ => other (by
    obtain rfl : x = y := Option.some.inj (taken.symm.trans seat)
    exact trunk)
  refine ⟨⟨by rw [far]; rfl, fun d seated => ?_⟩, unused⟩
  by_cases same : d = c
  · exact absurd (same ▸ seated) unused
  · refine (State.seatedOn_congr ?_).mp seated
    rw [State.chan, far]
    exact s.modChan_chan_other c d _ (Ne.symm same)

/-- The end of a close on a trunk that is not UP hands the channel to no seat of this trunk: a successor still valid is of an UP trunk (R62, R100). -/
theorem State.endCloseN_thins (off : (s.tpc t).link ≠ .up) (n : Nat) (c : Fin 12) :
    s.thins t (s.endCloseN n c) ∧ (n ≠ 0 → ¬ (s.endCloseN n c).seatedOn t c) := by
  induction n generalizing s c with
  | zero => exact ⟨s.thins_refl, fun h => absurd rfl h⟩
  | succ n ih =>
    have freed := s.freeChannel_thins (t := t) c .released
    unfold State.endCloseN
    split
    · exact ⟨freed.1, fun _ => freed.2⟩
    · rename_i x _
      split
      · rename_i valid
        have other : x.trunk ≠ t := fun same => off (same ▸ State.link_of_successorValid valid)
        obtain ⟨handed, unused⟩ := State.handover_thins other s c
        dsimp only
        generalize placed : ((s.handover c x).placeReport x ((s.handover c x).chan c).openCmd).1 = v
        have far : v.far = (s.handover c x).far := by rw [← placed, State.placeReport_far]
        have link : (v.tpc t).link ≠ .up := by
          rw [State.link_of_backdrop (s := s) (by rw [← placed]; simp)]
          exact off
        have thin := handed.trans (State.thins_of_far far)
        have unused' : ¬ v.seatedOn t c := fun seated => unused ((State.seatedOn_congr (by rw [State.chan, far]; rfl)).mp seated)
        split
        · split
          · rename_i d _
            obtain ⟨chain, -⟩ := ih link d
            exact ⟨thin.trans chain, fun _ seated => unused' (chain.2 c seated)⟩
          · exact ⟨thin, fun _ => unused'⟩
        · exact ⟨thin, fun _ => unused'⟩
      · exact ⟨freed.1, fun _ => freed.2⟩

/-- Step 1 of the teardown leaves its channel in no use by a seat of the trunk (R46). -/
theorem State.teardownChan_thins (off : (s.tpc t).link ≠ .up) (c : Fin 12) :
    s.thins t (s.teardownChan t c) ∧ ¬ (s.teardownChan t c).seatedOn t c := by
  unfold State.teardownChan
  split
  · rename_i x seat
    split
    · split
      · rename_i free
        exact ⟨s.thins_refl, fun ⟨busy, _⟩ => busy free⟩
      · obtain ⟨thin, unused⟩ := State.endCloseN_thins off 12 c
        exact ⟨thin, unused (by decide)⟩
      all_goals exact s.freeChannel_thins c .link
    · rename_i other
      exact ⟨s.thins_refl, fun ⟨_, y, seat', trunk⟩ => other (by
        obtain rfl : x = y := Option.some.inj (seat.symm.trans seat')
        exact trunk)⟩
  · rename_i noSeat
    exact ⟨s.thins_refl, fun ⟨_, y, seat, _⟩ => nomatch noSeat.symm.trans seat⟩

@[simp] theorem State.teardownChan_backdrop (s : State) (t : Fin 4) (c : Fin 12) : (s.teardownChan t c).backdrop = s.backdrop := by
  unfold State.teardownChan
  split
  · refine State.backdrop_ite ?_ rfl
    split <;> simp
  · rfl

/-- Step 1 over channels leaves none of them in use by a seat of the trunk (R46). -/
theorem State.teardownChans_thins (off : (s.tpc t).link ≠ .up) (l : List (Fin 12)) :
    s.thins t (l.foldl (State.teardownChan t) s) ∧ ∀ c ∈ l, ¬ (l.foldl (State.teardownChan t) s).seatedOn t c := by
  induction l generalizing s with
  | nil => exact ⟨s.thins_refl, fun c hc => nomatch hc⟩
  | cons c l ih =>
    obtain ⟨first, unused⟩ := State.teardownChan_thins off c
    obtain ⟨rest, unused'⟩ := ih (s := s.teardownChan t c) (by rw [State.link_of_backdrop (s.teardownChan_backdrop t c)]; exact off)
    refine ⟨first.trans rest, fun d hd => ?_⟩
    rcases List.mem_cons.mp hd with rfl | hd
    · exact fun seated => unused (rest.2 d seated)
    · exact unused' d hd

/-! ### The hold level met in a teardown (R117, R119, R121) -/

theorem State.rise_thins (s : State) : s.thins t s.rise := by
  obtain ⟨far, kept, met, -⟩ := s.rise_risen
  refine State.thins_of_chan far fun c => ?_
  by_cases opened : (s.chan c).state = .opened
  · by_cases below : s.belowHold c = true
    · rw [(met c opened below).1]
      split <;> exact ⟨rfl, fun free => nomatch opened.symm.trans free⟩
    · rw [(kept c (.inr (Bool.eq_false_iff.mpr below))).1]
      exact ⟨rfl, id⟩
  · rw [(kept c (.inl opened)).1]
    exact ⟨rfl, id⟩

theorem State.unmutedAt_thins (s : State) (c : Fin 12) : s.thins t (s.unmutedAt c) := by
  unfold State.unmutedAt
  split
  · rename_i held _
    split
    · exact s.thins_refl
    · split
      · refine State.thins_of_chan (by rw [State.notify_far]) fun d => ?_
        simp only [State.chan, State.notify_far, vget_vset]
        split
        · rename_i same
          subst same
          exact ⟨rfl, fun free => nomatch held.symm.trans free⟩
        · exact ⟨rfl, id⟩
      · exact State.thins_of_far (s.place_far ..)
  · exact s.thins_refl

theorem State.trigger_thins (s : State) : s.thins t s.trigger := ⟨rfl, fun _ h => h⟩

theorem State.holdChanged_thins (s : State) (before : Fin 8) : s.thins t (s.holdChanged before) := by
  unfold State.holdChanged
  split
  · exact s.rise_thins
  · split
    · refine (State.thins_foldl (fun a c => ?_) allChans s).trans (State.trigger_thins _)
      rw [State.fallAt_eq]
      exact a.unmutedAt_thins c
    · exact s.thins_refl

/-! ### The list, the hold set and list control in a teardown (R46 steps 2 to 4) -/

/-- A removal takes the seat's entry, where it has one, out of the list (R78). -/
theorem State.listRemove_far (s : State) (x : Seat) (cause : RemovalCause) :
    (s.listRemove x cause).far = { s.far with list := s.far.list.eraseP fun e => e.seat = x } := by
  cases entry : s.entryOf x with
  | none =>
    have absent : s.far.list.eraseP (fun e => e.seat = x) = s.far.list := List.eraseP_of_forall_not fun e he => List.find?_eq_none.mp entry e he
    simp only [State.listRemove, entry, absent]
  | some e =>
    obtain ⟨i, -, removed⟩ := State.listRemove_spec entry cause
    rw [removed]
    split
    · simp only [State.place_far, State.notify_far, State.modFar]
    · simp only [State.notify_far, State.modFar]

/-- Taking out the seats that satisfy `P` one after another leaves the entries of the others, where `kept` holds none of them. -/
theorem eraseP_seats {P : Seat → Prop} [DecidablePred P] (kept q : List Entry) (others : ∀ e ∈ kept, ¬ P e.seat) :
    ((q.map Entry.seat).filter fun x => P x).foldl (fun l x => l.eraseP fun e => e.seat = x) (kept ++ q) = kept ++ q.filter fun e => ¬ P e.seat := by
  induction q generalizing kept with
  | nil => rfl
  | cons e q ih =>
    by_cases h : P e.seat
    · have absent : ∀ a ∈ kept, ¬ decide (a.seat = e.seat) = true := fun a ha same => others a ha (of_decide_eq_true same ▸ h)
      simp only [List.map_cons, List.filter_cons, h, decide_true, if_true, List.foldl_cons, not_true, decide_false, Bool.false_eq_true, if_false]
      rw [List.eraseP_append_right _ absent, List.eraseP_cons_of_pos (by simp)]
      exact ih kept others
    · have later := ih (kept ++ [e]) fun a ha => by
        rcases List.mem_append.mp ha with ha | ha
        · exact others a ha
        · exact List.mem_singleton.mp ha ▸ h
      simpa [List.filter_cons, h] using later

/-- Removals one after another. -/
theorem State.listRemovesOver_far (l : List Seat) (cause : RemovalCause) (s : State) : (l.foldl (fun a x => a.listRemove x cause) s).far
    = { s.far with list := l.foldl (fun q x => q.eraseP fun e => e.seat = x) s.far.list } := by
  induction l generalizing s with
  | nil => rfl
  | cons x l ih => rw [List.foldl_cons, ih, State.listRemove_far, List.foldl_cons]

/-- Step 2 of the teardown takes the entries of the trunk out of the list (R46). -/
theorem State.listRemoves_far (s : State) (t : Fin 4) (cause : RemovalCause) :
    (((s.far.list.map Entry.seat).filter fun x => x.trunk = t).foldl (fun a x => a.listRemove x cause) s).far
      = { s.far with list := s.far.list.filter fun e => e.seat.trunk ≠ t } := by
  rw [State.listRemovesOver_far]
  exact congrArg (fun q => { s.far with list := q }) (eraseP_seats (P := fun x => x.trunk = t) [] s.far.list (by simp))

/-- Leaving the hold set changes the members and the level alone (R120). -/
theorem State.leaveHold_far (s : State) (x : Seat) :
    (s.leaveHold x).far = { s.far with holdSet := s.far.holdSet.filter fun y => y ≠ x, holdLevel := (s.leaveHold x).far.holdLevel } := by
  unfold State.leaveHold
  split
  · simp only [State.notifyHold, State.notify_far]
    rfl
  · rename_i absent
    have same : (s.far.holdSet.filter fun y => y ≠ x) = s.far.holdSet :=
      List.filter_eq_self.mpr fun y hy => decide_eq_true fun e => absent (e ▸ hy)
    rw [same]

theorem State.leaveHoldsOver_far (l : List Seat) (s : State) : (l.foldl (fun a x => a.leaveHold x) s).far
    = { s.far with holdSet := s.far.holdSet.filter fun y => y ∉ l, holdLevel := (l.foldl (fun a x => a.leaveHold x) s).far.holdLevel } := by
  induction l generalizing s with
  | nil => simp
  | cons x l ih =>
    rw [List.foldl_cons, ih, State.leaveHold_far]
    simp only [List.filter_filter, List.mem_cons, not_or, Bool.decide_and, Bool.and_comm, ne_eq]

/-- Step 3 of the teardown takes the members of the trunk out of the hold set (R46). -/
theorem State.leaveHolds_far (s : State) (t : Fin 4) (u : State)
    (h : u = (s.far.holdSet.filter fun x => x.trunk = t).foldl (fun a x => a.leaveHold x) s) :
    u.far = { s.far with holdSet := s.far.holdSet.filter fun x => x.trunk ≠ t, holdLevel := u.far.holdLevel } := by
  have left := State.leaveHoldsOver_far (s.far.holdSet.filter fun x => x.trunk = t) s
  have others : (s.far.holdSet.filter fun y => y ∉ s.far.holdSet.filter fun x => x.trunk = t) = s.far.holdSet.filter fun x => x.trunk ≠ t :=
    List.filter_congr fun y hy => by simp [hy]
  rw [← h, others] at left
  exact left

/-- Step 4 of the teardown: a holder of the trunk is cleared (R46). -/
def State.trunkHolderCleared (t : Fin 4) (s : State) : State :=
  match s.far.holder with
  | some x => if x.trunk = t then s.clearHolder x else s
  | none => s

theorem State.trunkHolderCleared_far (s : State) (t : Fin 4) :
    (s.trunkHolderCleared t).far = { s.far with holder := s.far.holder.filter fun x => x.trunk ≠ t } := by
  unfold State.trunkHolderCleared
  split
  · rename_i x holder
    split
    · rename_i same
      simp [State.clearHolder, State.notifyList, holder, same, State.modFar, Option.filter]
    · rename_i other
      rw [holder, Option.filter_some_pos (by simpa using other), ← holder]
  · rename_i holder
    rw [holder, Option.filter_none, ← holder]

end

/-! ### The whole teardown (R46) -/

section
variable {s : State} {t : Fin 4}

/-- Steps 1 to 4 leave nothing of a trunk that is not UP on the floor, and the entries, members and holder of other trunks as they are (R46). -/
theorem State.teardownFloor_spec (off : (s.tpc t).link ≠ .up) (u : State) (h : u = s.teardownFloor t) :
    (∀ c, ¬ u.seatedOn t c) ∧ u.far.list = s.far.list.filter (fun e => e.seat.trunk ≠ t)
      ∧ u.far.holdSet = s.far.holdSet.filter (fun x => x.trunk ≠ t) ∧ u.far.holder = s.far.holder.filter (fun x => x.trunk ≠ t)
      ∧ u.far.claimed = s.far.claimed ∧ u.far.forceReturn = s.far.forceReturn := by
  unfold State.teardownFloor at h
  obtain ⟨⟨far1, -⟩, unused⟩ := State.teardownChans_thins off allChans
  generalize allChans.foldl (State.teardownChan t) s = s1 at h far1 unused
  have far2 := s1.listRemoves_far t .lost
  dsimp only at h
  generalize List.foldl (fun a x => State.listRemove x .lost a) s1 _ = s2 at h far2
  have far3 := s2.leaveHolds_far t _ rfl
  generalize List.foldl (fun a x => State.leaveHold x a) s2 _ = s3 at h far3
  obtain ⟨far4, seated4⟩ := s3.holdChanged_thins (t := t) s2.far.holdLevel
  generalize s3.holdChanged s2.far.holdLevel = s4 at h far4 seated4
  have cleared : u = s4.trunkHolderCleared t := h
  have far5 := s4.trunkHolderCleared_far t
  rw [← cleared] at far5
  have chan5 : ∀ c, u.chan c = s4.chan c := fun c => by rw [State.chan, far5]; rfl
  have chan3 : ∀ c, s3.chan c = s1.chan c := fun c => by rw [State.chan, far3, far2]; rfl
  refine ⟨fun c seated => unused c (List.mem_finRange c) ?_, ?_, ?_, ?_, ?_, ?_⟩
  · exact (State.seatedOn_congr (chan3 c)).mp (seated4 c ((State.seatedOn_congr (chan5 c)).mp seated))
  all_goals rw [far5, far4, far3, far2, far1]

@[simp] theorem State.teardownFloor_backdrop (s : State) (t : Fin 4) : (s.teardownFloor t).backdrop = s.backdrop := by
  have removed : ∀ (l : List Seat) (a : State), (l.foldl (fun a x => a.listRemove x .lost) a).backdrop = a.backdrop :=
    State.backdrop_foldl fun a x => a.listRemove_backdrop x .lost
  have left : ∀ (l : List Seat) (a : State), (l.foldl (fun a x => a.leaveHold x) a).backdrop = a.backdrop :=
    State.backdrop_foldl fun a x => a.leaveHold_backdrop x
  have chans := State.backdrop_foldl (fun a c => a.teardownChan_backdrop t c) allChans s
  unfold State.teardownFloor
  dsimp only
  split
  · exact State.backdrop_ite (by simp [removed, left, chans]) (by simp [removed, left, chans])
  · simp [removed, left, chans]

/-- Step 6 of the teardown: a running census ends with outcome LINK_FAULT, which sets CENSUS_FAULT (R46). -/
def State.censusCut (t : Fin 4) (s : State) : State :=
  if (s.tpc t).censusRunning then (s.setFlag .censusFault).endCensus t .linkFault else s

theorem State.censusCut_far (s : State) (t : Fin 4) :
    (s.censusCut t).far = { s.far with promotionDeferred := (s.censusCut t).far.promotionDeferred } := by
  unfold State.censusCut
  split
  · simp only [State.endCensus, State.trigger, State.modFar, State.notify_far]
    rfl
  · rfl

theorem State.censusCut_tpc (s : State) (t : Fin 4) : (s.censusCut t).tpc t = { s.tpc t with
    censusRunning := false, censusOutcome := if (s.tpc t).censusRunning then .linkFault else (s.tpc t).censusOutcome } := by
  unfold State.censusCut
  split
  · simp only [State.endCensus, State.trigger_tpc, State.notify_tpc, State.modTpc_tpc_self, State.setFlag_tpc]
  · rename_i off
    rw [← Bool.eq_false_iff.mpr off]

theorem State.censusCut_tpc_other {k : Fin 4} (other : k ≠ t) (s : State) : (s.censusCut t).tpc k = s.tpc k := by
  unfold State.censusCut
  split
  · simp only [State.endCensus, State.trigger_tpc, State.notify_tpc, State.modTpc_tpc_other _ _ _ _ (Ne.symm other), State.setFlag_tpc]
  · rfl

theorem State.censusCut_batch (s : State) (t : Fin 4) : (s.censusCut t).mge.batch = s.mge.batch := by
  unfold State.censusCut
  split
  · simp only [State.endCensus, State.trigger, State.modFar, State.notify_batch]
    rfl
  · rfl

theorem State.censusCut_flag (running : (s.tpc t).censusRunning = true) : flagsHas .censusFault (s.censusCut t).mge.flags = true := by
  have set : flagsHas .censusFault (s.setFlag .censusFault).mge.flags = true := flagsHas_set _ _
  simp only [State.censusCut, running, if_true]
  exact State.notices_hasFlag [.census t .linkFault ((s.setFlag .censusFault).tpc t).presentCount] (s := (s.setFlag .censusFault).modTpc t _) set

/-- Step 7 of the teardown: a lost link is counted, which sets LINK_LOST (R46). -/
def State.lossCounted (t : Fin 4) (lost : Bool) (s : State) : State :=
  if lost then (s.modTpc t fun p => { p with lostLinks := satAdd 255 p.lostLinks 1 }).setFlag .linkLost else s

theorem State.lossCounted_far (s : State) (t : Fin 4) (lost : Bool) : (s.lossCounted t lost).far = s.far := by
  cases lost <;> rfl

theorem State.lossCounted_batch (s : State) (t : Fin 4) (lost : Bool) : (s.lossCounted t lost).mge.batch = s.mge.batch := by
  cases lost <;> rfl

theorem State.lossCounted_tpc (s : State) (t : Fin 4) (lost : Bool) : (s.lossCounted t lost).tpc t
    = { s.tpc t with lostLinks := if lost then min 255 ((s.tpc t).lostLinks + 1) else (s.tpc t).lostLinks } := by
  cases lost with
  | true => exact s.modTpc_tpc_self t fun p => { p with lostLinks := satAdd 255 p.lostLinks 1 }
  | false => rfl

theorem State.lossCounted_tpc_other {k : Fin 4} (other : k ≠ t) (lost : Bool) (s : State) : (s.lossCounted t lost).tpc k = s.tpc k := by
  cases lost with
  | true => exact s.modTpc_tpc_other t k (fun p => { p with lostLinks := satAdd 255 p.lostLinks 1 }) (Ne.symm other)
  | false => rfl

theorem State.lossCounted_flag {lost : Bool} (isLost : lost = true) : flagsHas .linkLost (s.lossCounted t lost).mge.flags = true := by
  rw [isLost]
  exact flagsHas_set _ _

theorem State.lossCounted_hasFlag {g : Flag} (lost : Bool) (h : flagsHas g s.mge.flags = true) :
    flagsHas g (s.lossCounted t lost).mge.flags = true := by
  cases lost with
  | true => exact flagsHas_mono h
  | false => exact h

/-- The port of a trunk after its teardown to DOWN or HELD (R24, R46). -/
def Tpc.tornDown (link : LinkState) (lost : Bool) (p : Tpc) : Tpc := { p with
  link := link, goodRun := 0, badRun := 0, lastAnswered := none, echoes := [], queue := [], inFlight := none, censusRunning := false
  censusOutcome := if p.censusRunning then .linkFault else p.censusOutcome
  lostLinks := if lost then min 255 (p.lostLinks + 1) else p.lostLinks }

/-- What the teardown of a trunk to `link` comes to (R24, R46). -/
theorem State.teardown_spec {link : LinkState} (off : link ≠ .up) (lost : Bool) (u : State) (h : u = s.teardown t link lost) :
    u.tpc t = (s.tpc t).tornDown link lost ∧ (∀ k, k ≠ t → u.tpc k = { s.tpc k with queue := (u.tpc k).queue })
      ∧ (∀ c, ¬ u.seatedOn t c) ∧ u.far.list = s.far.list.filter (fun e => e.seat.trunk ≠ t)
      ∧ u.far.holdSet = s.far.holdSet.filter (fun x => x.trunk ≠ t) ∧ u.far.holder = s.far.holder.filter (fun x => x.trunk ≠ t)
      ∧ u.far.claimed = s.far.claimed ∧ u.far.forceReturn = s.far.forceReturn
      ∧ (lost = true → flagsHas .linkLost u.mge.flags = true)
      ∧ ((s.tpc t).censusRunning = true → flagsHas .censusFault u.mge.flags = true) ∧ u.mge.batch = s.mge.batch := by
  obtain ⟨s0, opened⟩ : ∃ a, a = s.modTpc t (Tpc.enterOff link) := ⟨_, rfl⟩
  obtain ⟨f, cleared⟩ : ∃ a, a = s0.teardownFloor t := ⟨_, rfl⟩
  obtain ⟨a, emptied⟩ : ∃ a, a = f.modTpc t fun p => { p with queue := [], inFlight := none, echoes := [] } := ⟨_, rfl⟩
  have counted : u = ((a.censusCut t).lossCounted t lost).notify (.trunk t link) := by rw [h, emptied, cleared, opened]; rfl
  have port0 : s0.tpc t = (s.tpc t).enterOff link := by rw [opened, State.modTpc_tpc_self]
  have kept : f.backdrop = s0.backdrop := by rw [cleared, State.teardownFloor_backdrop]
  obtain ⟨unused, list, holdSet, holder, claimed, forceReturn⟩ := State.teardownFloor_spec (by rw [port0]; exact off) f cleared
  have port : a.tpc t = { s.tpc t with
      link := link, goodRun := 0, badRun := 0, lastAnswered := none, echoes := [], queue := [], inFlight := none } := by
    rw [emptied, State.modTpc_tpc_self, State.tpc_of_backdrop kept t, port0]
    rfl
  have far : u.far = { f.far with promotionDeferred := u.far.promotionDeferred } := by
    rw [counted, State.notify_far, State.lossCounted_far, State.censusCut_far, emptied]
    rfl
  have floor : s0.far = s.far := by rw [opened]; rfl
  rw [floor] at list holdSet holder claimed forceReturn
  refine ⟨?_, fun k other => ?_, fun c seated => unused c ((State.seatedOn_congr (by rw [State.chan, far]; rfl)).mp seated), ?_, ?_, ?_, ?_, ?_,
    fun isLost => ?_, fun running => ?_, ?_⟩
  · rw [counted, State.notify_tpc, State.lossCounted_tpc, State.censusCut_tpc, port]
    rfl
  · have portOther : u.tpc k = f.tpc k := by
      rw [counted, State.notify_tpc, State.lossCounted_tpc_other other, State.censusCut_tpc_other other, emptied,
        State.modTpc_tpc_other _ _ _ _ (Ne.symm other)]
    rw [portOther, State.tpc_of_backdrop kept k, opened, State.modTpc_tpc_other _ _ _ _ (Ne.symm other)]
  · rw [far, ← list]
  · rw [far, ← holdSet]
  · rw [far, ← holder]
  · rw [far, ← claimed]
  · rw [far, ← forceReturn]
  · rw [counted]
    exact State.notices_hasFlag [.trunk t link] (State.lossCounted_flag isLost)
  · rw [counted]
    have before : (a.tpc t).censusRunning = true := by rw [port]; exact running
    exact State.notices_hasFlag [.trunk t link] (State.lossCounted_hasFlag lost (State.censusCut_flag before))
  · rw [counted, State.notify_batch, State.lossCounted_batch, State.censusCut_batch, emptied]
    exact (State.batch_of_backdrop kept).trans (by rw [opened]; rfl)

/-! ### The trunk records (R39, R42, R44, R45) -/

theorem State.trunkBusy_iff : s.trunkBusy t = true ↔ (∃ c x, (s.chan c).state ≠ .free ∧ (s.chan c).seat = some x ∧ x.trunk = t)
    ∨ ∃ e ∈ s.far.list, e.state = .offered ∧ e.seat.trunk = t := by
  unfold State.trunkBusy
  rw [Bool.or_eq_true, List.any_eq_true, List.any_eq_true]
  refine or_congr ⟨fun ⟨c, _, h⟩ => ?_, fun ⟨c, x, busy, seat, trunk⟩ => ⟨c, List.mem_finRange c, ?_⟩⟩ (by simp)
  · obtain ⟨busy, seated⟩ := Bool.and_eq_true_iff.mp h
    split at seated
    · rename_i x seat
      exact ⟨c, x, of_decide_eq_true busy, seat, of_decide_eq_true seated⟩
    · exact nomatch seated
  · simp only [seat, trunk, decide_true, Bool.and_true, decide_eq_true_eq]
    exact busy

/-- A probe in flight is dropped (R42). -/
theorem Tpc.dropProbe_eq (p : Tpc) : p.dropProbe = { p with inFlight := p.inFlight.filter fun f => f.cmd ≠ .probe } := by
  unfold Tpc.dropProbe
  split
  · rename_i f flight
    split
    · rename_i probe
      simp [flight, probe, Option.filter]
    · rename_i command
      rw [flight, Option.filter_some_pos (by simpa using command), ← flight]
  · rename_i empty
    rw [empty, Option.filter_none, ← empty]

/-- A census aborted (R42). -/
theorem State.abort_eq (s : State) (t : Fin 4) : (s.modTpc t Tpc.dropProbe).endCensus t .aborted
    = State.notify (.census t .aborted (s.tpc t).presentCount) { s with
      trunks := vset s.trunks t { s.tpc t with
        censusRunning := false, censusOutcome := .aborted, inFlight := (s.tpc t).inFlight.filter fun f => f.cmd ≠ .probe }
      far := { s.far with promotionDeferred := true } } := by
  have count : ((s.modTpc t Tpc.dropProbe).tpc t).presentCount = (s.tpc t).presentCount := by rw [State.modTpc_tpc_self, Tpc.dropProbe_eq]
  rw [State.endCensus, State.notify_trigger, State.modTpc_modTpc, count]
  simp only [Tpc.dropProbe_eq]
  rfl

/-- A record of a trunk that does not exist is refused (R39, R42, R44, R45). -/
theorem exec_trunk_badField {b : Byte} {i : Instr} {kind : Byte} (takes : s.takes i) (above : 3 < b.toNat)
    (h : (i, kind) = (.census b, 0x10) ∨ (i, kind) = (.abortCensus b, 0x11) ∨ (i, kind) = (.holdTrunk b, 0x12)
      ∨ (i, kind) = (.releaseTrunk b, 0x13)) : exec i s = .next (s.afterRecord s kind .badField []) := by
  have refused : ∀ body, onTrunk b body s = Answer.refuse .badField s := fun body => by rw [onTrunk, finOfByte_none (show 4 ≤ b.toNat from above)]
  rcases h with h | h | h | h <;> obtain ⟨rfl, rfl⟩ := Prod.mk.inj h <;>
    exact congrArg Host.Outcome.next (State.runRecord_refuse takes _ (refused _))

theorem onTrunk_some {b : Byte} (number : b.toNat = t.val) (body : Fin 4 → State → Answer) (s : State) : onTrunk b body s = body t s := by
  rw [onTrunk, finOfByte_some number]

end

end Sys2Proof.Machine

namespace Sys2Proof.Proofs

open Sys2Proof.Machine

/-- Settles O23: the bad frame time is the teardown to DOWN, whose parts `State.teardown_spec` gives. -/
theorem trunkLossClearsFloor : Obligations.TrunkLossClearsFloor := by
  unfold Obligations.TrunkLossClearsFloor
  intro s t running up last
  have lost : s.trunkBad t = s.teardown t .down true := by simp only [State.trunkBad, up, last, Config.badRunLimit]; rfl
  obtain ⟨u, torn⟩ : ∃ u, u = s.teardown t .down true := ⟨_, rfl⟩
  obtain ⟨port, others, unused, list, holdSet, holder, claimed, forceReturn, linkLost, censusFault, batch⟩ :=
    State.teardown_spec (by decide) true u torn
  obtain ⟨-, lastReply, hallOut, trunkOut, hold, pending, classes, zones, settings, -⟩ := (s.teardown_moves (o := false) t .down true).frame
  rw [← torn] at lastReply hallOut trunkOut hold pending classes zones settings lost
  refine ⟨u, ?_, ?_, port, others, fun c x busy seat trunk => unused c ⟨busy, x, seat, trunk⟩, list, holdSet, holder, claimed, forceReturn,
    linkLost rfl, censusFault, settings, batch, classes, zones, hold, lastReply, hallOut, trunkOut, pending⟩
  · rw [← lost]
    exact congrArg Host.Outcome.next (if_pos (by simp [State.trunkAboutDown, running, up, last, Config.badRunLimit]))
  · rw [exec_trunkFrameMissing running, lost]

/-- Settles O47: each record by its body on the trunk named; HOLD_TRUNK by `State.teardown_spec`. -/
theorem trunkRecordsActByLinkState : Obligations.TrunkRecordsActByLinkState := by
  unfold Obligations.TrunkRecordsActByLinkState
  refine ⟨fun b i kind s takes above h => exec_trunk_badField takes above h, fun t b s number => ?_⟩
  intro p busy
  have answered : ∀ {i : Instr} {kind : Byte} {body : Fin 4 → State → Answer} {u : State} {status : Status}, s.takes i →
      body t s = ⟨u, status, []⟩ → s.runRecord i kind (onTrunk b body) = s.afterRecord u kind status [] := fun takes answer =>
    State.runRecord_answer takes _ ((onTrunk_some number _ s).trans answer)
  have next : ∀ {a u : State}, a = u → (Host.Outcome.next a : Host.Outcome State Fault Refusal) = .next u := fun h => by rw [h]
  refine ⟨fun takes => ⟨fun census => next (answered takes ?_), fun idle barred => next (answered takes ?_),
      fun idle up free => next (answered takes ?_)⟩,
    fun takes => ⟨fun idle => next (answered takes ?_), fun census => next (answered takes ?_)⟩,
    fun takes => ⟨fun held => next (answered takes ?_), fun other => ?_⟩,
    fun takes => ⟨fun other => next (answered takes ?_), fun held => next (answered takes ?_)⟩⟩
  · exact if_pos census
  · rw [censusTrunk, if_neg (by simp [show (s.tpc t).censusRunning = false from idle])]
    split
    · rfl
    · rename_i up
      exact if_pos (State.trunkBusy_iff.mpr (barred.resolve_left up))
  · rw [censusTrunk, if_neg (by simp [show (s.tpc t).censusRunning = false from idle]), if_neg (not_not.mpr up),
      if_neg fun h => free (State.trunkBusy_iff.mp h)]
    rfl
  · exact if_neg (by simp [show (s.tpc t).censusRunning = false from idle])
  · rw [abortTrunk, if_pos census, State.abort_eq]
  · exact if_pos held
  · obtain ⟨u, torn⟩ : ∃ u, u = s.teardown t .held false := ⟨_, rfl⟩
    obtain ⟨port, others, unused, list, holdSet, holder, claimed, forceReturn, -⟩ := State.teardown_spec (by decide) false u torn
    obtain ⟨-, -, -, -, -, -, classes, zones, settings, -⟩ := (s.teardown_moves (o := false) t .held false).frame
    rw [← torn] at classes zones settings
    refine ⟨u, next (answered takes ?_), port, others, fun c x busy seat trunk => unused c ⟨busy, x, seat, trunk⟩, list, holdSet,
      holder, claimed, forceReturn, settings, classes, zones⟩
    rw [torn]
    exact if_neg other
  · exact if_neg other
  · exact if_pos held

end Sys2Proof.Proofs
end

section
/-! PROOF. The floor table every step keeps exact (O58): each `Move` changes at most one channel, and one that takes or leaves FREE does so together
with the open sequence (R52, R54). -/

namespace Sys2Proof.Machine

/-! ### One channel of the floor table -/

/-- What R54 asks of one channel alone: FREE it holds nothing, and otherwise a talk slot of its seat's trunk. -/
def Channel.slotted (ch : Channel) : Prop :=
  (ch.state = .free → ch.seat = none ∧ ch.slot = none ∧ ch.successor = none)
    ∧ (ch.state ≠ .free → ∃ x k, ch.seat = some x ∧ ch.trunk = some x.trunk ∧ ch.slot = some k)

theorem State.slotsExclusive.slotted {s : State} (h : s.slotsExclusive) (c : Fin 12) : (s.chan c).slotted := ⟨h.1 c, h.2.1 c⟩

/-- A channel changed on its own keeps the talk slots exclusive where its new slot is held by no other (R54). -/
theorem State.slotsExclusive.replace {s u : State} {c : Fin 12} (h : s.slotsExclusive) (others : ∀ d, d ≠ c → u.chan d = s.chan d)
    (own : (u.chan c).slotted) (alone : (u.chan c).state ≠ .free → ∀ d, d ≠ c → (s.chan d).state ≠ .free →
      (s.chan d).trunk = (u.chan c).trunk → (s.chan d).slot ≠ (u.chan c).slot) : u.slotsExclusive := by
  have slotted : ∀ d, (u.chan d).slotted := fun d => by
    by_cases here : d = c
    · exact here ▸ own
    · exact others d here ▸ h.slotted d
  refine ⟨fun d => (slotted d).1, fun d => (slotted d).2, fun d e distinct busyD busyE trunk => ?_⟩
  by_cases hereD : d = c
  · subst hereD
    rw [others e distinct.symm] at busyE trunk ⊢
    exact (alone busyD e distinct.symm busyE trunk.symm).symm
  · rw [others d hereD] at busyD trunk ⊢
    by_cases hereE : e = c
    · subst hereE
      exact alone busyE d hereD busyD trunk
    · rw [others e hereE] at busyE trunk ⊢
      obtain ⟨-, -, exclusive⟩ := h
      exact exclusive d e distinct busyD busyE trunk

/-! ### The invariant -/

/-- The floor table of O58: the open sequence and the talk slots are exact (R52, R54). -/
def State.floorExact (s : State) : Prop := s.openSeqExact ∧ s.slotsExclusive

/-- It depends on the channels and the open sequence alone. -/
theorem State.floorExact_congr {s u : State} (channels : u.far.channels = s.far.channels) (openSeq : u.far.openSeq = s.far.openSeq) :
    u.floorExact ↔ s.floorExact := by
  simp only [State.floorExact, State.openSeqExact, State.slotsExclusive, State.chan, channels, openSeq]

/-- A channel changed that stays FREE or stays in use. -/
theorem State.floorExact.replace {s : State} {c : Fin 12} {f : Channel → Channel} (h : s.floorExact)
    (free : (f (s.chan c)).state = .free ↔ (s.chan c).state = .free) (own : (f (s.chan c)).slotted)
    (alone : (f (s.chan c)).state ≠ .free → ∀ d, d ≠ c → (s.chan d).state ≠ .free →
      (s.chan d).trunk = (f (s.chan c)).trunk → (s.chan d).slot ≠ (f (s.chan c)).slot) : (s.modChan c f).floorExact := by
  obtain ⟨⟨once, lists⟩, slots⟩ := h
  refine ⟨⟨once, fun d => ?_⟩,
    slots.replace (c := c) (fun d other => s.modChan_chan_other c d f other.symm) (by simpa using own) (by simpa using alone)⟩
  rw [State.modChan_far_openSeq, lists]
  by_cases here : c = d
  · subst here
    simp [free]
  · simp [here]

/-- A FREE channel taken joins the open sequence at its end (R52, R53). -/
theorem State.floorExact.allocate {s : State} {c : Fin 12} {x : Seat} {k : Fin 6} {ch : Channel} (h : s.floorExact)
    (free : (s.chan c).state = .free) (taken : ch.state ≠ .free) (seat : ch.seat = some x) (trunk : ch.trunk = some x.trunk)
    (slot : ch.slot = some k) (exclusive : s.slotFreeFor c x.trunk k) :
    State.floorExact ((s.modChan c fun _ => ch).modFar fun f => { f with openSeq := f.openSeq ++ [c] }) := by
  obtain ⟨⟨once, lists⟩, slots⟩ := h
  have same : ∀ d, State.chan ((s.modChan c fun _ => ch).modFar fun f => { f with openSeq := f.openSeq ++ [c] }) d
      = if c = d then ch else s.chan d := fun d => s.modChan_chan c d fun _ => ch
  refine ⟨⟨?_, fun d => ?_⟩, slots.replace (c := c) (fun d other => ?_) ?_ fun _ d other busy trunk' => ?_⟩
  · have outside : c ∉ s.far.openSeq := fun mem => (lists c).mp mem free
    simpa [List.nodup_append] using ⟨once, fun a mem e => outside (e ▸ mem)⟩
  · rw [same]
    by_cases here : c = d
    · subst here
      simp [taken]
    · simp [here, lists, Ne.symm here]
  · rw [same, if_neg other.symm]
  · rw [same, if_pos rfl]
    exact ⟨fun e => absurd e taken, fun _ => ⟨x, k, seat, trunk, slot⟩⟩
  · rw [same, if_pos rfl] at trunk' ⊢
    rw [slot]
    exact exclusive d other busy (trunk'.trans trunk)

/-- A channel cleared leaves the open sequence (R52, R63). -/
theorem State.floorExact.clear {s : State} (h : s.floorExact) (c : Fin 12) : (s.clearChan c).floorExact := by
  obtain ⟨⟨once, lists⟩, slots⟩ := h
  have openSeq : (s.clearChan c).far.openSeq = s.far.openSeq.filter fun d => d ≠ c := rfl
  have cleared : (s.clearChan c).chan c = Channel.reset := by rw [State.clearChan_chan, if_pos rfl]
  refine ⟨⟨openSeq ▸ once.filter _, fun d => ?_⟩, slots.replace (c := c) (fun d other => ?_) ?_ fun busy => ?_⟩
  · rw [openSeq, State.clearChan_chan]
    by_cases here : c = d
    · subst here
      simp [Channel.reset]
    · simp [here, lists, Ne.symm here]
  · rw [State.clearChan_chan, if_neg other.symm]
  · rw [cleared]
    exact ⟨fun _ => ⟨rfl, rfl, rfl⟩, fun busy => absurd rfl busy⟩
  · exact absurd (by rw [cleared]; rfl) busy

/-- Every move keeps the floor table exact. -/
theorem Move.floorExact {o : Bool} {s t : State} (h : Move o s t) (hs : s.floorExact) : t.floorExact := by
  have alone : ∀ c, (s.chan c).state ≠ .free → ∀ d, d ≠ c → (s.chan d).state ≠ .free → (s.chan d).trunk = (s.chan c).trunk →
      (s.chan d).slot ≠ (s.chan c).slot := by
    obtain ⟨-, -, -, exclusive⟩ := hs
    exact fun c busy d other busyD trunk => exclusive d c other busyD busy trunk
  cases h with
  | notice n => exact (State.floorExact_congr (by rw [State.notify_far]) (by rw [State.notify_far])).mpr hs
  | far f _ channels openSeq _ => exact (State.floorExact_congr channels openSeq).mpr hs
  | chan c f _ free seat trunk slot successor =>
    obtain ⟨empty, full⟩ := hs.2.slotted c
    refine hs.replace free ⟨fun isFree => ?_, fun busy => ?_⟩ fun busy d other busyD sameTrunk => ?_
    · obtain ⟨noSeat, noSlot, noSuccessor⟩ := empty (free.mp isFree)
      refine ⟨seat.trans noSeat, slot.trans noSlot, ?_⟩
      rcases successor (free.mp isFree) with none | same
      · exact none
      · exact same.trans noSuccessor
    · rw [seat, trunk, slot]
      exact full (mt free.mpr busy)
    · rw [slot]
      exact alone c (mt free.mpr busy) d other busyD (sameTrunk.trans trunk)
  | handover c x ch _ busy taken seat trunk slot =>
    have slotOf : ∃ k, ch.slot = some k := by
      rcases slot with ⟨-, same⟩ | ⟨k, given, -⟩
      · obtain ⟨-, k, -, -, held⟩ := (hs.2.slotted c).2 busy
        exact ⟨k, same.trans held⟩
      · exact ⟨k, given⟩
    obtain ⟨k, given⟩ := slotOf
    refine hs.replace (f := fun _ => ch) (by simp [busy, taken]) ⟨fun e => absurd e taken, fun _ => ⟨x, k, seat, trunk, given⟩⟩
      fun _ d other busyD sameTrunk => ?_
    rcases slot with ⟨ownTrunk, same⟩ | ⟨j, lowest, exclusive⟩
    · rw [same]
      exact alone c busy d other busyD (sameTrunk.trans (trunk.trans ownTrunk.symm))
    · rw [lowest]
      exact exclusive d other busyD (sameTrunk.trans trunk)
  | alloc c x k ch _ free taken seat trunk slot exclusive => exact hs.allocate free taken seat trunk slot exclusive
  | clear c => exact hs.clear c
  | flag | mge | hli | queues | tpc | seat | slm | fmx | reply | hallOut | trunkOut => exact hs

theorem Moves.floorExact {o : Bool} {s t : State} (h : Moves o s t) (hs : s.floorExact) : t.floorExact := h.keeps Move.floorExact hs

/-- At reset every channel is FREE and the open sequence empty. -/
theorem State.floorExact_of_reset {s : State} (h : s.far = Far.reset) : s.floorExact := by
  have free : ∀ c, s.chan c = Channel.reset := fun c => by simp [State.chan, h, Far.reset]
  refine ⟨⟨by simp [h, Far.reset], fun c => by simp [free, h, Far.reset, Channel.reset]⟩,
    fun c _ => ?_, fun c busy => ?_, fun c _ _ busy => ?_⟩
  · simp [free, Channel.reset]
  · exact absurd (by rw [free]; rfl) busy
  · exact absurd (by rw [free]; rfl) busy

/-- Every command's change keeps the floor table exact. -/
theorem Change.floorExact {s t : State} (h : Change s t) (hs : s.floorExact) : t.floorExact := by
  cases h with
  | path moves => exact moves.floorExact hs
  | reset cause holdMs => exact State.floorExact_of_reset rfl
  | holdEnd _ => exact hs
  | seating stb _ _ moves => exact moves.floorExact (s := s.setStb stb) hs
  | settings p moves => exact moves.floorExact hs
  | opened _ moves => exact moves.floorExact hs
  | closed before after => exact after.floorExact (before.floorExact hs)
  | engine _ => exact State.floorExact_of_reset rfl

end Sys2Proof.Machine

namespace Sys2Proof.Proofs

open Sys2Proof.Machine

/-- Settles O58: a step is a `Change` of the state with the command taken from its queue, and every `Change` keeps the floor table exact. -/
theorem stepKeepsFloorTableExact : Obligations.StepKeepsFloorTableExact := by
  unfold Obligations.StepKeepsFloorTableExact
  intro s t openSeq slots hstep
  obtain ⟨u, hu, change⟩ := step_change s
  obtain rfl : u = t := Host.Outcome.next.inj (hu.symm.trans hstep)
  exact change.floorExact (s := { s with pending := s.pending.tail }) ⟨openSeq, slots⟩

end Sys2Proof.Proofs
end

section
/-! PROOF. The completions of MUTE and UNMUTE (O40) and of CLOSE (O41): each acts on the channel of the seat that answers, in the state that channel
has. -/

namespace Sys2Proof.Machine

/-- Handlings that come to the same state end in the same state. -/
theorem settled_congr {u v : State} (h : u = v) : (Host.Outcome.next u.settle : Host.Outcome State Fault Refusal) = .next v.settle := by rw [h]

section
variable {s : State} {x : Seat} {c : Fin 12}

/-! ### What FAR makes of the completion (R59, R62, R65) -/

/-- A MUTE or UNMUTE completed on no HELD channel asks nothing of FAR (R65). -/
theorem State.muting_completed_elsewhere (other : ∀ c, s.chanOf x = some c → (s.chan c).state ≠ .held) (result : AckResult) :
    s.muteCompleted x result = s ∧ s.unmuteCompleted x result = s := by
  unfold State.muteCompleted State.unmuteCompleted
  cases chan : s.chanOf x with
  | none => exact ⟨rfl, rfl⟩
  | some c =>
    have notHeld := other c chan
    cases state : (s.chan c).state with
    | held => exact absurd state notHeld
    | free | offered | opening | opened | closing => simp only [state, and_self]

/-- MUTE or UNMUTE rejected on a HELD channel (R59). -/
theorem State.muting_rejected (chan : s.chanOf x = some c) (held : (s.chan c).state = .held) :
    s.muteCompleted x .rejected = s.closeRequest c .rejected ∧ s.unmuteCompleted x .rejected = s.closeRequest c .rejected := by
  simp only [State.muteCompleted, State.unmuteCompleted, chan, held, and_self]

/-- MUTE done on a HELD channel changes nothing (R59). -/
theorem State.muteCompleted_done (chan : s.chanOf x = some c) (held : (s.chan c).state = .held) : s.muteCompleted x .done = s := by
  simp only [State.muteCompleted, chan, held]

/-- UNMUTE done on a HELD channel, by the hold level (R59). -/
theorem State.unmuteCompleted_done (chan : s.chanOf x = some c) (held : (s.chan c).state = .held) :
    s.unmuteCompleted x .done = if s.belowHold c then s.place x .mute else s.resume c := by
  simp only [State.unmuteCompleted, chan, held]

/-- CLOSE completed, by the state of the seat's channel (R62, R65). -/
theorem State.closeCompleted_elsewhere (other : ∀ c, s.chanOf x = some c → (s.chan c).state ≠ .closing) : s.closeCompleted x = s := by
  unfold State.closeCompleted
  cases chan : s.chanOf x with
  | none => rfl
  | some c =>
    have notClosing := other c chan
    cases state : (s.chan c).state with
    | closing => exact absurd state notClosing
    | free | offered | opening | opened | held => simp only [state]

theorem State.closeCompleted_closing (chan : s.chanOf x = some c) (closing : (s.chan c).state = .closing) : s.closeCompleted x = s.endClose c := by
  simp only [State.closeCompleted, chan, closing]

/-- What bringing a HELD channel back to OPEN changes (R59, R145). -/
theorem State.resume_spec (seat : (s.chan c).seat = some x) :
    (s.resume c).far = { s.far with channels := vset s.far.channels c { s.chan c with state := .opened, reachedOpen := some true } }
      ∧ (s.resume c).trunks = s.trunks ∧ (s.resume c).fmx = s.fmx
      ∧ (s.resume c).slm = (if s.mge.settings.levelMonitor then vset s.slm c { s.slmOf c with
          progress := some 0, exponent := some s.mge.settings.windowExponent, sum := 0 } else s.slm)
      ∧ (s.resume c).stb = (if (s.chan c).reachedOpen = some false then (s.modSeat x fun r => { r with grants := min 65535 (r.grants + 1) }).stb
          else s.stb)
      ∧ s.onlyNotices [.chResumed c x] (s.resume c) := by
  rw [State.resume_eq seat]
  refine ⟨State.notify_far .., State.notify_trunks .., State.notify_fmx .., State.notify_slm .., State.notify_stb .., ?_⟩
  refine State.onlyNotices_after ?_ (State.onlyNotices_notify _ _)
  refine State.onlyNotices_of rfl rfl rfl rfl rfl ?_ ?_ rfl rfl
  · exact (apply_ite Stb.classes ..).trans (ite_self _)
  · exact (apply_ite Stb.zones ..).trans (ite_self _)

end

end Sys2Proof.Machine

namespace Sys2Proof.Proofs

open Sys2Proof.Machine

/-- Settles O40: the channel is HELD or it is not, and the result and the hold level say the rest. -/
theorem muteAndUnmuteComplete : Obligations.MuteAndUnmuteComplete := by
  unfold Obligations.MuteAndUnmuteComplete
  intro x result s
  refine ⟨fun nothing => ⟨congrArg _ (State.takeAck_of_none nothing _ _ _), congrArg _ (State.takeAck_of_none nothing _ _ _)⟩,
    fun cmd i awaiting which => ?_⟩
  intro a
  have run : exec i s = .next (a.completed x cmd result 0).settle := by
    rcases which with ⟨rfl, rfl⟩ | ⟨rfl, rfl⟩ <;> exact exec_completionOf awaiting rfl
  have leaves : ∀ {u : State}, a.muteCompleted x result = u ∧ a.unmuteCompleted x result = u → exec i s = .next u.settle := by
    rintro u ⟨mute, unmute⟩
    rcases which with ⟨rfl, rfl⟩ | ⟨rfl, rfl⟩
    · rw [run, ← mute]
      rfl
    · rw [run, ← unmute]
      rfl
  refine ⟨fun other => leaves (State.muting_completed_elsewhere (s := a) other result), fun c chan held => ?_⟩
  have seat := State.chanOf_seat chan
  refine ⟨?_, ?_, ?_, ?_⟩
  · rintro rfl
    obtain ⟨entry, others, far, trunks, fmx, slm, stb, told⟩ := State.closingOf_held (s := a) (c := c) (x := x) .rejected held seat
    have held' : (a.chan c).state = .held := held
    simp only [held', reduceCtorEq, if_false] at slm stb
    exact ⟨_, leaves (State.muting_rejected chan held), entry, others, far, trunks, slm, fmx, stb, told⟩
  · rintro rfl rfl
    rw [run]
    exact settled_congr (State.muteCompleted_done (s := a) chan held)
  · rintro rfl rfl below
    rw [run]
    exact settled_congr ((State.unmuteCompleted_done (s := a) chan held).trans (if_pos below))
  · rintro rfl rfl above
    obtain ⟨far, trunks, fmx, slm, stb, told⟩ := State.resume_spec (s := a) (c := c) (x := x) seat
    have resumed : a.unmuteCompleted x .done = a.resume c :=
      (State.unmuteCompleted_done (s := a) chan held).trans (if_neg (ne_true_of_eq_false above))
    refine ⟨a.resume c, run.trans (settled_congr resumed), ?_, fun d other => ?_, ?_, trunks, fmx, slm, stb, told⟩
    · rw [State.chan, far]
      exact vget_vset_self ..
    · rw [State.chan, far]
      exact vget_vset_other _ _ _ _ other.symm
    · rw [far]
      rfl

/-- Settles O41: what the end of a close comes to is said once, by `State.endClose_closeEndOf`. -/
theorem closeCompletes : Obligations.CloseCompletes := by
  unfold Obligations.CloseCompletes
  intro x result s
  refine ⟨fun nothing => congrArg _ (State.takeAck_of_none nothing _ _ _), fun awaiting => ?_⟩
  intro a
  have run : exec (.closeComplete x result) s = .next (a.closeCompleted x).settle := exec_completionOf (cmd := .close) (data := 0) awaiting rfl
  refine ⟨fun other => ?_, fun c chan closing => ?_⟩
  · rw [run, State.closeCompleted_elsewhere (s := a) other]
  intro gone
  rw [State.closeCompleted_closing (s := a) chan closing] at run
  obtain ⟨frees, hands⟩ := State.endClose_closeEndOf (s := a) (c := c) (x := x) closing (State.chanOf_seat chan)
  refine ⟨run, fun noSuccessor => ?_, fun y k successor valid unsent slot => ?_⟩
  · obtain ⟨cleared, others, far, trunks, stb, slm, fmx, told⟩ := frees noSuccessor
    exact ⟨_, run, cleared, others, far, stb, slm, fmx, trunks, told⟩
  · obtain ⟨entry, others, far, stb, slm, fmx, trunks, told⟩ := hands y k successor valid unsent slot
    exact ⟨_, run, entry, others, far, stb, slm, fmx, trunks, told⟩

end Sys2Proof.Proofs
end

section
/-! SUPPORT. How a channel comes to OPENING or OFFERED: allocation (R53), offers made (R82) and accepted (R86), promotion (R110), and what the removal
of an entry comes to (R78). -/

namespace Sys2Proof.Machine

section
variable {s : State} {x : Seat} {c : Fin 12} {k : Fin 6}

/-- One notice queued after changes that queue none. -/
theorem State.onlyNotices_told {u : State} (n : Notice) (h : s.onlyNotices [] u) : s.onlyNotices [n] (u.notify n) :=
  State.onlyNotices_after h (u.onlyNotices_notify n)

/-! ### Removing an entry (R78) -/

/-- An entry removed, with REFUSED placed where the cause asks for it of a WAITING one. -/
theorem State.listRemove_eq {e : Entry} {i : Nat} (entry : s.entryOf x = some e) (index : s.listIndex x = some i) (cause : RemovalCause) :
    s.listRemove x cause =
      let told := State.notify (.listRemove x cause i (s.far.list.length - 1)) { s with far := { s.far with list := s.far.list.eraseIdx i } }
      if e.state = .waiting ∧ (cause = .cancelled ∨ cause = .cleared ∨ cause = .sitting) then told.place x .refused else told := by
  have inside : i < s.far.list.length := (List.findIdx?_eq_some_iff_getElem.mp index).1
  simp only [State.listRemove, entry, index, State.modFar_far, List.length_eraseIdx_of_lt inside]
  rfl

/-- An entry that leaves the list because its seat takes the floor (R78). -/
theorem State.listRemove_opened {e : Entry} {i : Nat} (entry : s.entryOf x = some e) (index : s.listIndex x = some i) : s.listRemove x .opened
    = State.notify (.listRemove x .opened i (s.far.list.length - 1)) { s with far := { s.far with list := s.far.list.eraseIdx i } } := by
  rw [State.listRemove_eq entry index]
  exact if_neg (by simp)

/-! ### Placing OPEN (R53) -/

/-- A seat whose CLOSE is not unsent has its OPEN placed, and no close ends by it (R53, R64 row 8). -/
theorem State.placeOpen_eq_place (unsent : s.unsent x ≠ some .close) : s.placeOpen c x = s.place x (s.chan c).openCmd :=
  if_neg (State.placeReport_open_kept unsent ((s.chan c).slot.getD 0) ((s.chan c).mutedAtOpen.getD false))

/-- The muted flag in words (R53). -/
theorem State.mutedFlag_eq (s : State) (x : Seat) :
    s.mutedFlag (s.kindOf x) (s.levelOf x) = decide (s.kindOf x = .delegate ∧ s.levelOf x < s.far.holdLevel) := by
  simp [State.mutedFlag]

/-- An eligible seat is not below the hold level (R53, R99). -/
theorem State.mutedFlag_of_eligible (eligible : s.eligible x = true) : s.mutedFlag (s.kindOf x) (s.levelOf x) = false := by
  simp only [State.eligible, State.eligibleSkip, State.holdCondition, Bool.and_eq_true, Bool.or_eq_true, decide_eq_true_eq] at eligible
  obtain ⟨-, other | above⟩ := eligible
  · simp only [State.mutedFlag, other, decide_false, Bool.false_and]
  · simp only [State.mutedFlag, not_lt.mpr above, decide_false, Bool.and_false]

/-! ### A channel taken (R53) -/

/-- A FREE channel given an entry: it joins the open sequence, and its audio state starts afresh (R53 steps 3 to 5). -/
def State.allotted (s : State) (c : Fin 12) (ch : Channel) : State := { s with
  far := { s.far with channels := vset s.far.channels c ch, openSeq := s.far.openSeq ++ [c] }
  slm := vset s.slm c SlmChan.reset
  fmx := { s.fmx with chans := vset s.fmx.chans c { s.fmxOf c with latest := 0, fresh := false } } }

theorem State.allotted_chan (s : State) (c : Fin 12) (ch : Channel) : (s.allotted c ch).chan c = ch := vget_vset_self ..

theorem State.allotted_chan_other {d : Fin 12} (other : d ≠ c) (ch : Channel) : (s.allotted c ch).chan d = s.chan d :=
  vget_vset_other _ _ _ _ other.symm

theorem State.allotted_place (s : State) (c : Fin 12) (ch : Channel) (y : Seat) (cmd : Cmd) :
    (s.allotted c ch).place y cmd = { s.allotted c ch with trunks := (s.place y cmd).trunks } := by
  rw [State.place_eq, State.place_trunks_congr (s := s) (u := s.allotted c ch) cmd rfl rfl]

theorem State.onlyNotices_allotted (s : State) (c : Fin 12) (ch : Channel) : s.onlyNotices [] (s.allotted c ch) :=
  State.onlyNotices_of rfl rfl rfl rfl rfl rfl rfl rfl rfl

/-- The lowest FREE channel and talk slot go to the seat, and its OPEN is placed as a placement that may end another close (R53, R64 row 8). -/
theorem State.allocate_placeOpen (free : s.freeChan = some c) (slot : s.freeSlot none x.trunk = some k) (cause : OpeningCause) :
    s.allocate x cause = (s.allotted c (s.openingEntry x (some k) cause)).placeOpen c x := by
  simp only [State.allocate, free, slot]
  rfl

/-- Where no CLOSE of the seat is unsent, allocation takes the channel and places OPEN (R53). -/
theorem State.allocate_eq (free : s.freeChan = some c) (slot : s.freeSlot none x.trunk = some k) (unsent : s.unsent x ≠ some .close)
    (cause : OpeningCause) : s.allocate x cause
      = (s.allotted c (s.openingEntry x (some k) cause)).place x (.openMic k (s.mutedFlag (s.kindOf x) (s.levelOf x))) := by
  have kept : (s.allotted c (s.openingEntry x (some k) cause)).unsent x ≠ some .close := unsent
  rw [State.allocate_placeOpen free slot, State.placeOpen_eq_place kept, State.allotted_chan]
  rfl

/-! ### Offers (R82, R86) -/

/-- The entry of the channel an offer reserves (R53, R82). -/
def State.reservedEntry (s : State) (x : Seat) (k : Fin 6) : Channel :=
  { s.openingEntry x (some k) .promoted with state := .offered, mutedAtOpen := none }

/-- The list with the entry of a seat OFFERED (R82). -/
def State.offeredList (s : State) (x : Seat) : List Entry := s.far.list.map fun e =>
  if e.seat = x then { e with state := .offered, window := some s.mge.settings.confirmWindow, deadline := none } else e

/-- An offer reserves the lowest FREE channel and talk slot, places OFFER and is told (R82). -/
theorem State.makeOffer_eq (free : s.freeChan = some c) (slot : s.freeSlot none x.trunk = some k) : s.makeOffer x
    = ((((s.allotted c (s.reservedEntry x k)).modFar fun f => { f with list := s.offeredList x }).place x .offer).notify
        (.offer x c (some k) s.mge.settings.confirmWindow)) := by
  simp only [State.makeOffer, free, slot]
  rfl

/-- An offer taken: the entry leaves the list, the channel is OPENING, and OPEN is placed, muted where the seat is below the hold level (R86). -/
theorem State.acceptOffer_spec {e : Entry} {i : Nat} (entry : s.entryOf x = some e) (index : s.listIndex x = some i)
    (chan : s.chanOf x = some c) (slot : (s.chan c).slot = some k) (unsent : s.unsent x ≠ some .close) :
    (s.acceptOffer x).far = { s.far with
        channels := vset s.far.channels c { s.chan c with state := .opening, mutedAtOpen := some (s.belowHold c) }
        list := s.far.list.eraseIdx i }
      ∧ (s.acceptOffer x).trunks = (s.place x (.openMic k (s.belowHold c))).trunks ∧ (s.acceptOffer x).stb = s.stb
      ∧ (s.acceptOffer x).slm = s.slm ∧ (s.acceptOffer x).fmx = s.fmx
      ∧ s.onlyNotices [.listRemove x .opened i (s.far.list.length - 1)] (s.acceptOffer x) := by
  have removed := State.listRemove_opened entry index
  generalize hu : s.listRemove x .opened = u at removed
  have far : u.far = { s.far with list := s.far.list.eraseIdx i } := by rw [removed, State.notify_far]
  have trunks : u.trunks = s.trunks := by rw [removed, State.notify_trunks]
  have stb : u.stb = s.stb := by rw [removed, State.notify_stb]
  have slm : u.slm = s.slm := by rw [removed, State.notify_slm]
  have fmx : u.fmx = s.fmx := by rw [removed, State.notify_fmx]
  have told : s.onlyNotices [.listRemove x .opened i (s.far.list.length - 1)] u := by
    rw [removed]
    exact State.onlyNotices_told _ (State.onlyNotices_of rfl rfl rfl rfl rfl rfl rfl rfl rfl)
  have chans : ∀ d, u.chan d = s.chan d := fun d => by rw [State.chan, far]; rfl
  have chan' : u.chanOf x = some c := by simpa only [State.chanOf, chans] using chan
  have below : u.belowHold c = s.belowHold c := by simp only [State.belowHold, chans, far]
  have accepted : s.acceptOffer x
      = (u.modChan c fun ch => { ch with state := .opening, mutedAtOpen := some (s.belowHold c) }).place x (.openMic k (s.belowHold c)) := by
    have unsent' : (u.modChan c fun ch => { ch with state := .opening, mutedAtOpen := some (s.belowHold c) }).unsent x ≠ some .close := by
      simpa only [State.unsent, State.tpc, State.modChan_trunks, trunks] using unsent
    simp only [State.acceptOffer, hu, chan', below]
    rw [State.placeOpen_eq_place unsent', State.modChan_chan_self, Channel.openCmd, chans, slot]
    rfl
  rw [accepted]
  refine ⟨?_, State.place_trunks_congr _ trunks (by rw [State.modChan_seatRec, State.seatRec, stb, State.seatRec]), ?_, ?_, ?_, ?_⟩
  · simp only [State.place_far, State.modChan, far, chans]
  · rw [State.place_stb, State.modChan_stb, stb]
  · rw [State.place_slm, State.modChan_slm, slm]
  · rw [State.place_fmx, State.modChan_fmx, fmx]
  · exact State.onlyNotices_then (State.onlyNotices_then told (State.onlyNotices_of rfl rfl rfl rfl rfl rfl rfl rfl rfl))
      (State.onlyNotices_place _ _ _)

/-! ### Promotion (R110) -/

/-- A seat may be promoted when it is eligible and its entry WAITING. -/
theorem State.promotable_iff (s : State) (x : Seat) :
    s.promotable x = true ↔ s.eligible x = true ∧ ∃ e, s.entryOf x = some e ∧ e.state = .waiting := by
  unfold State.promotable
  cases entry : s.entryOf x with
  | none => simp
  | some e => simp [and_comm]

/-- A promotion with confirm on makes an offer (R82, R110). -/
theorem State.promote_offer (free : s.freeChan = some c) (slot : s.freeSlot none x.trunk = some k) (confirm : s.mge.settings.confirm = true) :
    (s.promote x).far = { s.far with
        channels := vset s.far.channels c (s.reservedEntry x k), openSeq := s.far.openSeq ++ [c], list := s.offeredList x }
      ∧ (s.promote x).slm = (s.allotted c (s.reservedEntry x k)).slm ∧ (s.promote x).fmx = (s.allotted c (s.reservedEntry x k)).fmx
      ∧ (s.promote x).trunks = (s.place x .offer).trunks ∧ (s.promote x).stb = s.stb
      ∧ s.onlyNotices [.offer x c (some k) s.mge.settings.confirmWindow] (s.promote x) := by
  rw [State.promote, if_pos confirm, State.makeOffer_eq free slot]
  refine ⟨?_, ?_, ?_, ?_, ?_, ?_⟩
  · rw [State.notify_far, State.place_far]
    rfl
  · rw [State.notify_slm, State.place_slm]
    rfl
  · rw [State.notify_fmx, State.place_fmx]
    rfl
  · rw [State.notify_trunks]
    exact State.place_trunks_congr _ rfl rfl
  · rw [State.notify_stb, State.place_stb]
    rfl
  · refine State.onlyNotices_told _ (State.onlyNotices_then
      (b := (s.allotted c (s.reservedEntry x k)).modFar fun f => { f with list := s.offeredList x }) ?_ (State.onlyNotices_place _ _ _))
    exact State.onlyNotices_of rfl rfl rfl rfl rfl rfl rfl rfl rfl

/-- A promotion with confirm off gives the floor: the entry leaves the list, and OPEN is placed (R53, R110). -/
theorem State.promote_floor {i : Nat} (promotable : s.promotable x = true) (index : s.listIndex x = some i) (free : s.freeChan = some c)
    (slot : s.freeSlot none x.trunk = some k) (confirm : s.mge.settings.confirm = false) (unsent : s.unsent x ≠ some .close) :
    (s.promote x).far = { s.far with
        channels := vset s.far.channels c { s.openingEntry x (some k) .promoted with mutedAtOpen := some false }
        openSeq := s.far.openSeq ++ [c], list := s.far.list.eraseIdx i }
      ∧ (s.promote x).slm = (s.allotted c (s.reservedEntry x k)).slm ∧ (s.promote x).fmx = (s.allotted c (s.reservedEntry x k)).fmx
      ∧ (s.promote x).trunks = (s.place x (.openMic k false)).trunks ∧ (s.promote x).stb = s.stb
      ∧ s.onlyNotices [.listRemove x .opened i (s.far.list.length - 1)] (s.promote x) := by
  obtain ⟨eligible, e, entry, -⟩ := (s.promotable_iff x).mp promotable
  have muted := State.mutedFlag_of_eligible eligible
  have opened := State.allocate_eq free slot unsent .promoted
  rw [muted, State.allotted_place] at opened
  have entry' : (s.allocate x .promoted).entryOf x = some e := by rw [opened]; exact entry
  have index' : (s.allocate x .promoted).listIndex x = some i := by rw [opened]; exact index
  rw [State.promote, if_neg (ne_true_of_eq_false confirm), State.listRemove_opened entry' index', opened]
  have entered : s.openingEntry x (some k) .promoted = { s.openingEntry x (some k) .promoted with mutedAtOpen := some false } := by
    simp only [State.openingEntry, muted]
  refine ⟨?_, State.notify_slm .., State.notify_fmx .., State.notify_trunks .., State.notify_stb .., ?_⟩
  · rw [State.notify_far, ← entered]
    rfl
  · exact State.onlyNotices_told _ (State.onlyNotices_of rfl rfl rfl rfl rfl rfl rfl rfl rfl)

end

end Sys2Proof.Machine
end

section
/-! PROOF. MIC_PRESS and CONFIRM: a press opens a channel (O28), gives one back (O31), and takes or declines an offer (O33). -/

namespace Sys2Proof.Machine

/-! ### Reads of the floor past an intake (R27, R28) -/

section
variable (s : State) (x y : Seat) (serial : Fin 16) (c : Fin 12)

@[simp] theorem State.afterIntake_chan : (s.afterIntake x serial).chan c = s.chan c := by
  rw [State.chan, State.afterIntake_far, State.chan]

@[simp] theorem State.afterIntake_slmOf : (s.afterIntake x serial).slmOf c = s.slmOf c := by
  rw [State.slmOf, State.afterIntake_slm, State.slmOf]

@[simp] theorem State.afterIntake_fmxOf : (s.afterIntake x serial).fmxOf c = s.fmxOf c := by
  rw [State.fmxOf, State.afterIntake_fmx, State.fmxOf]

@[simp] theorem State.afterIntake_chanOf : (s.afterIntake x serial).chanOf y = s.chanOf y := by
  simp only [State.chanOf, State.afterIntake_chan]

@[simp] theorem State.afterIntake_successorChan : (s.afterIntake x serial).successorChan y = s.successorChan y := by
  simp only [State.successorChan, State.afterIntake_chan]

@[simp] theorem State.afterIntake_entryOf : (s.afterIntake x serial).entryOf y = s.entryOf y := by
  simp only [State.entryOf, State.afterIntake_far]

@[simp] theorem State.afterIntake_listIndex : (s.afterIntake x serial).listIndex y = s.listIndex y := by
  simp only [State.listIndex, State.afterIntake_far]

@[simp] theorem State.afterIntake_freeChan : (s.afterIntake x serial).freeChan = s.freeChan := by
  simp only [State.freeChan, State.afterIntake_chan]

@[simp] theorem State.afterIntake_freeSlot (t : Fin 4) : (s.afterIntake x serial).freeSlot none t = s.freeSlot none t := by
  simp only [State.freeSlot, State.slotHolder, State.counts, State.afterIntake_chan]

@[simp] theorem State.afterIntake_belowHold : (s.afterIntake x serial).belowHold c = s.belowHold c := by
  simp only [State.belowHold, State.afterIntake_chan, State.afterIntake_far]

@[simp] theorem State.afterIntake_openUnsent : (s.afterIntake x serial).openUnsent y = s.openUnsent y := by
  simp only [State.openUnsent, State.afterIntake_unsent]

end

/-! ### What the two events come to (R79) -/

section
variable {t : Fin 4} {position : Fin 128} {serial : Fin 16} {s : State} {x : Seat}

theorem exec_micPress (taken : s.takesEvent t position serial x) (arg : Byte) :
    exec (.micPress t position serial arg) s = .next ((s.afterIntake x serial).micPressed arg x).settle :=
  (exec_seatEventOf .micPress t position serial arg s).trans (by rw [State.seatEvent_eq taken]; rfl)

theorem exec_confirm (taken : s.takesEvent t position serial x) (arg : Byte) :
    exec (.confirm t position serial arg) s = .next ((s.afterIntake x serial).confirmed x).settle :=
  (exec_seatEventOf .confirm t position serial arg s).trans (by rw [State.seatEvent_eq taken]; rfl)

end

section
variable {s : State} {x : Seat} {c : Fin 12} {arg : Byte}

/-- The press of an IDLE seat without the offer mark is a new request (R79). -/
theorem State.micPressed_idle (idle : s.floorState x = .idle) (mark : arg.getLsbD 0 = false) : s.micPressed arg x = s.newRequest x := by
  simp only [State.micPressed, idle, mark, Bool.false_eq_true, if_false]

/-- The press of an OFFERED seat takes the offer or declines it (R79, R85). -/
theorem State.micPressed_offered (offered : s.floorState x = .offered) : s.micPressed arg x
    = if s.pressDeclines x then s.endOffer x .declined .released true else s.acceptOffer x := by
  simp only [State.micPressed, offered]

/-- The press of a speaker is a close request (R66, R79). -/
theorem State.micPressed_closes (state : s.floorState x = .opening ∨ s.floorState x = .opened ∨ s.floorState x = .held)
    (chan : s.chanOf x = some c) : s.micPressed arg x = s.closeRequest c .released := by
  rcases state with state | state | state <;> simp only [State.micPressed, state, State.closeSeat, chan]

theorem State.micPressed_closing (closing : s.floorState x = .closing) : s.micPressed arg x = s := by
  simp only [State.micPressed, closing]

/-- The press of a SUCCEEDING seat ends its succession (R79, R106). -/
theorem State.micPressed_succeeding (succeeding : s.floorState x = .succeeding) : s.micPressed arg x = s.dropSuccession x := by
  simp only [State.micPressed, succeeding]

theorem State.confirmed_offered (offered : s.floorState x = .offered) : s.confirmed x = s.acceptOffer x := by
  simp only [State.confirmed, offered]

/-- A CONFIRM of a seat that holds a channel past its offer is ignored (R79). -/
theorem State.confirmed_holding
    (state : s.floorState x = .opening ∨ s.floorState x = .opened ∨ s.floorState x = .held ∨ s.floorState x = .closing) :
    s.confirmed x = s := by
  rcases state with state | state | state | state <;> simp only [State.confirmed, state]

theorem State.pressDeclines_iff : s.pressDeclines x = true ↔ (s.seatRec x).confirmKey = some true ∧ s.mge.settings.pressAsConfirm = false := by
  simp only [State.pressDeclines, Bool.and_eq_true, decide_eq_true_eq, Bool.not_eq_true']

/-! ### A request that opens a channel at once (R101, R102, R107) -/

/-- What eligibility says of the seat and its trunk (R99). -/
theorem State.seatConditions_iff : s.seatConditions x = true ↔ (s.tpc x.trunk).link = .up ∧ (s.tpc x.trunk).censusRunning = false
    ∧ (s.seatRec x).availability = .present ∧ (s.seatRec x).enabled = true ∧ s.kindOf x ≠ .listener := by
  simp [State.seatConditions, and_assoc]

theorem State.seatConditions_of_eligible (eligible : s.eligible x = true) : s.seatConditions x = true := by
  simp only [State.eligible, State.eligibleSkip, Bool.and_eq_true] at eligible
  exact eligible.1.1

/-- Outside a batch the request of an eligible delegate in DIRECT mode, and that of an eligible chair, is an allocation. -/
theorem State.newRequest_allocates {cause : OpeningCause} (eligible : s.eligible x = true) (batch : s.mge.batch = none)
    (asks : (s.kindOf x = .delegate ∧ s.mge.settings.mode = .direct ∧ cause = .direct) ∨ (s.kindOf x = .chair ∧ cause = .chair)) :
    s.newRequest x = s.allocate x cause := by
  obtain ⟨-, census, -, enabled, -⟩ := State.seatConditions_iff.mp (State.seatConditions_of_eligible eligible)
  rcases asks with ⟨kind, mode, rfl⟩ | ⟨kind, rfl⟩
  · simp only [State.newRequest, enabled, kind, mode, State.directRequest, State.censusOn, census, eligible, batch, Bool.not_true,
      Bool.false_eq_true, Option.isSome_none, if_true, if_false]
  · simp only [State.newRequest, enabled, kind, State.chairBypass, eligible, batch, Bool.not_true, Bool.false_eq_true, Option.isSome_none,
      if_true, if_false]

/-- A command placed for a seat without an unsent one joins its trunk's queue (R31). -/
theorem State.place_new (up : (s.tpc x.trunk).link = .up) (present : (s.seatRec x).availability = .present) (unsent : s.unsent x = none)
    (cmd : Cmd) : (s.place x cmd).trunks
      = vset s.trunks x.trunk { s.tpc x.trunk with queue := (s.tpc x.trunk).queue ++ [⟨some x.pos, cmd⟩] } := by
  rw [State.place_taken up present, State.modTpc, enqueue_new _ _ _ (Option.map_eq_none_iff.mp unsent)]

end

end Sys2Proof.Machine

namespace Sys2Proof.Proofs

open Sys2Proof.Machine

/-- Settles O28: the press is an allocation, and no command of the seat is unsent for its OPEN to combine with. -/
theorem pressOpensAChannel : Obligations.PressOpensAChannel := by
  unfold Obligations.PressOpensAChannel
  intro t position serial arg s x c k cause taken idle mark batch unsent free slot asks a eligible
  obtain rfl : x.trunk = t := by
    obtain ⟨-, -, position, -⟩ := taken
    exact trunk_of_seatOfPosition position
  obtain ⟨up, -, present, -, -⟩ := State.seatConditions_iff.mp (State.seatConditions_of_eligible eligible)
  have unsent' : a.unsent x = none := (s.afterIntake_unsent x x serial).trans unsent
  have opens : a.micPressed arg x = a.allocate x cause := by
    rw [State.micPressed_idle ((s.afterIntake_floorState x serial).trans idle) mark]
    exact State.newRequest_allocates eligible ((s.afterIntake_batch x serial).trans batch)
      (by simpa only [a, State.afterIntake_kindOf, State.afterIntake_settings] using asks)
  rw [exec_micPress taken, opens, State.allocate_eq ((s.afterIntake_freeChan x serial).trans free) ((s.afterIntake_freeSlot x serial _).trans slot)
    (by rw [unsent']; decide), State.mutedFlag_of_eligible eligible, State.allotted_place, State.place_new up present unsent']
  refine settled_congr ?_
  have muted : (s.afterIntake x serial).mutedFlag (s.kindOf x) (s.levelOf x) = false := by
    rw [← s.afterIntake_kindOf x serial, ← s.afterIntake_levelOf x x serial]
    exact State.mutedFlag_of_eligible eligible
  have queue : (a.tpc x.trunk).queue = (s.tpc x.trunk).queue := by rw [State.afterIntake_tpc]
  simp only [State.allotted, State.openingEntry, queue]
  simp only [a, State.afterIntake_far, State.afterIntake_slm, State.afterIntake_fmx, State.afterIntake_fmxOf, State.afterIntake_kindOf,
    State.afterIntake_levelOf, muted, SlmChan.reset]

/-- Settles O31, by the state of the channel that is given back. -/
theorem pressReleasesTheChannel : Obligations.PressReleasesTheChannel := by
  unfold Obligations.PressReleasesTheChannel
  intro t position serial arg s x c taken a press
  have run : ∀ {u : State}, a.micPressed arg x = u → press = .next u.settle := fun pressed =>
    (exec_micPress taken arg).trans (settled_congr pressed)
  have floor : a.floorState x = s.floorState x := s.afterIntake_floorState x serial
  have releases : s.floorState x = .opening ∨ s.floorState x = .opened ∨ s.floorState x = .held → s.chanOf x = some c →
      press = .next (a.closeRequest c .released).settle := fun state chan =>
    run (State.micPressed_closes (by rwa [floor]) ((s.afterIntake_chanOf x x serial).trans chan))
  have closes : (s.floorState x = .opening ∧ s.openUnsent x = false) ∨ s.floorState x = .opened ∨ s.floorState x = .held → s.chanOf x = some c →
      a.closingOf c x .released (a.closeRequest c .released) := fun state chan =>
    State.closingOf_floorState .released ((s.afterIntake_chanOf x x serial).trans chan) (by rwa [floor, State.afterIntake_openUnsent])
  refine ⟨fun state chan => ?_, fun opening chan sent => ?_, fun opening chan unsent => ?_, fun succeeding successor => ?_, fun closing => ?_,
    fun holding => ?_⟩
  · obtain ⟨entry, others, far, trunks, fmx, slm, stb, told⟩ := closes (.inr state) chan
    obtain ⟨opened, opening⟩ := State.chanState_iff_floorState chan (.inr state)
    have notOpening : s.floorState x ≠ .opening := by rcases state with e | e <;> rw [e] <;> decide
    simp only [a, State.afterIntake_chan, State.afterIntake_far, State.afterIntake_fmx, opened, opening, if_neg notOpening]
      at entry others far fmx slm stb
    refine ⟨_, releases (.inr state) chan, entry, others, far, fmx, trunks, slm.trans ?_, stb.trans ?_, told⟩
    · split
      · simp only [State.withoutWindow, State.afterIntake_slm, State.afterIntake_slmOf]
      · exact s.afterIntake_slm x serial
    · simp only [State.withClock, State.afterIntake_slmOf, a]
  · obtain ⟨entry, others, far, trunks, fmx, slm, stb, told⟩ := closes (.inl ⟨opening, sent⟩) chan
    have state := (State.chanState_of_floorState chan).1 opening
    simp only [a, State.afterIntake_chan, State.afterIntake_far, State.afterIntake_fmx, state, reduceCtorEq, if_true, if_false,
      State.afterIntake_slm] at entry others far fmx slm stb
    exact ⟨_, releases (.inl opening) chan, entry, others, far, fmx, slm, stb, trunks, told⟩
  · have state := (State.chanState_of_floorState chan).1 opening
    obtain ⟨cleared, others, far, trunks, stb, slm, fmx, told⟩ := State.freed_of_openUnsent (s := a) (c := c) (x := x) .released
      (by rwa [State.afterIntake_chan]) (by rw [State.afterIntake_chan]; exact State.chanOf_seat chan) (by rwa [State.afterIntake_openUnsent])
    simp only [a, State.afterIntake_chan, State.afterIntake_far, State.afterIntake_fmx, State.afterIntake_slm] at others far slm fmx
    exact ⟨_, releases (.inl opening) chan, cleared, others, far, fmx, slm, stb, trunks, told⟩
  · refine run ((State.micPressed_succeeding (floor.trans succeeding)).trans ?_)
    rw [State.dropSuccession_eq ((s.afterIntake_successorChan x x serial).trans successor), State.afterIntake_far, State.afterIntake_chan]
  · exact run (State.micPressed_closing (floor.trans closing))
  · exact (exec_confirm taken arg).trans (settled_congr (State.confirmed_holding (by rwa [State.afterIntake_floorState])))

/-- Settles O33: a confirm, and a press that is no decline, accepts the offer; the other presses end it. -/
theorem confirmTakesTheOffer : Obligations.ConfirmTakesTheOffer := by
  unfold Obligations.ConfirmTakesTheOffer
  intro t position serial arg s x e i c k taken entry index offered chan state slot unsent a declines accepted
  obtain ⟨j, index', erased⟩ := State.entryOf_index entry
  obtain rfl : i = j := Option.some.inj (index.symm.trans index')
  have entry' : a.entryOf x = some e := (s.afterIntake_entryOf x x serial).trans entry
  have indexed : a.listIndex x = some i := (s.afterIntake_listIndex x x serial).trans index
  have chan' : a.chanOf x = some c := (s.afterIntake_chanOf x x serial).trans chan
  have floor : a.floorState x = .offered := State.floorState_of_offered entry' offered
  have accepts : accepted (a.acceptOffer x) := by
    obtain ⟨far, trunks, stb, slm, fmx, told⟩ := State.acceptOffer_spec (k := k) entry' indexed chan'
      (by rwa [State.afterIntake_chan]) (by rwa [State.afterIntake_unsent])
    simp only [a, State.afterIntake_chan, State.afterIntake_far, State.afterIntake_fmx, State.afterIntake_slm, State.afterIntake_belowHold]
      at far trunks slm fmx told
    refine ⟨?_, fun d other => ?_, ?_, trunks, stb, slm, fmx, told⟩
    · rw [State.chan, far]
      exact vget_vset_self ..
    · rw [State.chan, far]
      exact vget_vset_other _ _ _ _ other.symm
    · rw [far, ← erased]
  have declining : a.pressDeclines x = true ↔ declines := by
    rw [State.pressDeclines_iff, State.afterIntake_seatRec, State.afterIntake_settings]
  refine ⟨⟨_, (exec_confirm taken arg).trans (settled_congr (State.confirmed_offered floor)), accepts⟩, fun takes => ?_, fun refuses => ?_⟩
  · exact ⟨_, (exec_micPress taken arg).trans (settled_congr ((State.micPressed_offered floor).trans (if_neg (mt declining.mp takes)))), accepts⟩
  · have run := (exec_micPress taken arg).trans (settled_congr ((State.micPressed_offered floor).trans (if_pos (declining.mpr refuses))))
    have ended := State.freed_of_endOffer (s := a) entry' offered indexed chan' (by rwa [State.afterIntake_chan]) .declined .released true
    generalize a.endOffer x .declined .released true = u at run ended
    obtain ⟨cleared, others, far, trunks, stb, slm, fmx, told⟩ := ended
    simp only [a, State.afterIntake_chan, State.afterIntake_far, State.afterIntake_fmx, State.afterIntake_slm] at others far slm fmx told
    rw [erased] at far
    exact ⟨u, run, cleared, others, far, trunks, stb, slm, fmx, told⟩

end Sys2Proof.Proofs
end

section
/-! PROOF. The promotion run at the end of a handling (O21). -/

namespace Sys2Proof.Machine

/-! ### The promotion run (R109, R110) -/

section
variable {s : State}

/-- The state with the promotion mark cleared, in which a run begins (R109). -/
def State.unmarked (s : State) : State := { s with far := { s.far with promotionDeferred := false } }

theorem State.onlyNotices_unmarked (s : State) : s.onlyNotices [] s.unmarked := State.onlyNotices_of rfl rfl rfl rfl rfl rfl rfl rfl rfl

/-- A trigger outside a batch brings one promotion run (R109). -/
theorem State.settle_run (batch : s.mge.batch = none) (owed : s.far.promotionDeferred = true) : s.settle = s.unmarked.runPromotion :=
  if_pos ⟨by rw [batch]; rfl, owed⟩

/-- Entries that may not be promoted are passed over. -/
theorem State.promotion_passes {l : List Entry} (none : ∀ e ∈ l, s.promotable e.seat = false) :
    l.foldl (fun a e => a.promoteIf e.seat) s = s := by
  induction l with
  | nil => rfl
  | cons e l ih =>
    have passed : s.promoteIf e.seat = s := if_neg (ne_true_of_eq_false (none e List.mem_cons_self))
    rw [List.foldl_cons, passed]
    exact ih fun b mem => none b (List.mem_cons_of_mem _ mem)

/-- The first entry that may be promoted is, and the pass goes on from there. -/
theorem State.promotion_takes {before rest : List Entry} {e : Entry} (none : ∀ b ∈ before, s.promotable b.seat = false)
    (promotable : s.promotable e.seat = true) :
    (before ++ e :: rest).foldl (fun a e => a.promoteIf e.seat) s = rest.foldl (fun a e => a.promoteIf e.seat) (s.promote e.seat) := by
  have taken : s.promoteIf e.seat = s.promote e.seat := if_pos promotable
  rw [List.foldl_append, State.promotion_passes none, List.foldl_cons, taken]

/-- Outside LIST mode the run is one pass over the list (R110). -/
theorem State.runPromotion_eq (mode : s.mge.settings.mode ≠ .list) : s.runPromotion = s.far.list.foldl (fun a e => a.promoteIf e.seat) s := by
  rw [State.runPromotion, if_neg mode, List.foldl_map]

/-- A run that meets one entry it may promote. -/
theorem State.settle_promotes {before rest : List Entry} {e : Entry} (batch : s.mge.batch = none) (owed : s.far.promotionDeferred = true)
    (mode : s.mge.settings.mode ≠ .list) (list : s.far.list = before ++ e :: rest) (none : ∀ b ∈ before, s.promotable b.seat = false)
    (promotable : s.promotable e.seat = true) (after : ∀ b ∈ rest, (s.unmarked.promote e.seat).promotable b.seat = false) :
    s.settle = s.unmarked.promote e.seat := by
  have pass : s.settle = (before ++ e :: rest).foldl (fun a e => a.promoteIf e.seat) s.unmarked :=
    list ▸ (State.settle_run batch owed).trans (State.runPromotion_eq (s := s.unmarked) mode)
  exact pass.trans ((State.promotion_takes (s := s.unmarked) none promotable).trans (State.promotion_passes after))

end

end Sys2Proof.Machine

namespace Sys2Proof.Proofs

open Sys2Proof.Machine

/-- Settles O21. -/
theorem promotionRunsAtEndOfHandling : Obligations.PromotionRunsAtEndOfHandling := by
  unfold Obligations.PromotionRunsAtEndOfHandling
  refine ⟨fun s => s.settle_eq, fun s batch owed => ?_, fun s x => s.promotable_iff x, fun s x i c k promotable index free slot => ?_,
    fun s e c k batch owed mode list waiting eligible confirm free slot => ?_⟩
  · intro clear run
    have settle := State.settle_run batch owed
    refine ⟨fun h => ?_, fun mode => settle.trans (State.runPromotion_eq (s := clear) mode), fun a before rest e none promotable => ?_,
      fun before e rest mode list none promotable after => State.settle_promotes batch owed mode list none promotable after⟩
    · by_cases mode : s.mge.settings.mode = .list
      · exact settle.trans (if_pos mode)
      · exact (settle.trans (State.runPromotion_eq (s := clear) mode)).trans (State.promotion_passes (s := clear) (h.resolve_left mode))
    · exact State.promotion_takes none promotable
  · intro u ch audio
    refine ⟨fun confirm => ?_, fun confirm unsent => ?_⟩
    · obtain ⟨far, slm, fmx, rest⟩ := State.promote_offer free slot confirm
      exact ⟨far, ⟨slm, fmx⟩, rest⟩
    · obtain ⟨far, slm, fmx, rest⟩ := State.promote_floor promotable index free slot confirm unsent
      exact ⟨far, ⟨slm, fmx⟩, rest⟩
  · intro u
    have entry : s.entryOf e.seat = some e := by simp [State.entryOf, list]
    have settled : s.settle = s.unmarked.promote e.seat :=
      State.settle_promotes (before := []) (rest := []) batch owed mode list (fun _ h => (nomatch h))
        ((s.promotable_iff _).mpr ⟨eligible, e, entry, waiting⟩) fun _ h => (nomatch h)
    obtain ⟨far, -, -, trunks, stb, told⟩ := State.promote_offer (s := s.unmarked) (x := e.seat) free slot confirm
    simp only [u, settled]
    refine ⟨?_, ?_, fun d other => ?_, ?_, ?_, trunks.trans (State.place_trunks_congr _ rfl rfl), stb,
      State.onlyNotices_after s.onlyNotices_unmarked told⟩
    · rw [far]
      simp only [State.offeredList, State.unmarked, list, List.map_cons, List.map_nil, if_true]
    · rw [State.chan, far]
      exact vget_vset_self ..
    · rw [State.chan, far]
      exact vget_vset_other _ _ _ _ other.symm
    · rw [far]
      rfl
    · rw [far]
      rfl

end Sys2Proof.Proofs
end

section
/-! PROOF. NEXT and GRANT (O50): NEXT promotes the first entry it may, and GRANT opens a channel, whose OPEN may take the place of an unsent CLOSE. -/

namespace Sys2Proof.Machine

/-! ### Records that name a seat and are gated by list control (R126) -/

section
variable {s u : State} {i : Instr} {kind : Byte} {status : Status} {fields : List Byte} {x : Seat}

theorem gated_owned (owned : s.far.holder ≠ none) (body : State → Answer) : gated body s = Answer.refuse .notOwner s :=
  if_pos (Option.isSome_iff_ne_none.mpr owned)

theorem gated_free (free : s.far.holder = none) (body : State → Answer) : gated body s = body s :=
  if_neg (by rw [State.chairControls, free]; decide)

/-- While a chair holds the list a gated record is answered NOT_OWNER (R126). -/
theorem State.runRecord_owned (takes : s.takes i) (owned : s.far.holder ≠ none) (body : State → Answer) :
    s.runRecord i kind (gated body) = s.afterRecord s kind .notOwner [] :=
  State.runRecord_refuse takes kind (gated_owned owned body)

/-- With the list free it answers what its body answers. -/
theorem State.runRecord_free (takes : s.takes i) (free : s.far.holder = none) {body : State → Answer} (answer : body s = ⟨u, status, fields⟩) :
    s.runRecord i kind (gated body) = s.afterRecord u kind status fields :=
  State.runRecord_answer takes kind ((gated_free free body).trans answer)

theorem State.runRecord_seat_owned (takes : s.takes i) (owned : s.far.holder ≠ none) (body : Seat → State → Answer) :
    s.runRecord i kind (onSeat (BitVec.ofNat 16 (seatCode x)) fun y => gated (body y)) = s.afterRecord s kind .notOwner [] :=
  State.runRecord_refuse takes kind ((onSeat_seatCode x _ s).trans (gated_owned owned (body x)))

theorem State.runRecord_seat_free (takes : s.takes i) (free : s.far.holder = none) {body : Seat → State → Answer}
    (answer : body x s = ⟨u, status, fields⟩) :
    s.runRecord i kind (onSeat (BitVec.ofNat 16 (seatCode x)) fun y => gated (body y)) = s.afterRecord u kind status fields :=
  State.runRecord_answer takes kind ((onSeat_seatCode x _ s).trans ((gated_free free (body x)).trans answer))

end

section
variable {s u : State} {x : Seat} {c d : Fin 12} {k : Fin 6}

/-! ### The entry NEXT takes (R111) -/

theorem State.nextPromotable_none (none : ∀ e ∈ s.far.list, s.promotable e.seat = false) : s.nextPromotable = Option.none := by
  refine List.find?_eq_none.mpr fun y mem => ?_
  obtain ⟨e, listed, rfl⟩ := List.mem_map.mp mem
  exact ne_true_of_eq_false (none e listed)

theorem State.nextPromotable_first {before rest : List Entry} {e : Entry} (list : s.far.list = before ++ e :: rest)
    (none : ∀ b ∈ before, s.promotable b.seat = false) (promotable : s.promotable e.seat = true) : s.nextPromotable = some e.seat := by
  refine List.find?_eq_some_iff_append.mpr ⟨promotable, before.map Entry.seat, rest.map Entry.seat, by simp [list], fun y mem => ?_⟩
  obtain ⟨b, listed, rfl⟩ := List.mem_map.mp mem
  rw [none b listed]
  rfl

/-! ### The seats GRANT may open for (R112) -/

theorem State.grantable_iff (s : State) (x : Seat) : s.grantable x = true ↔ s.floorState x = .idle ∨ s.floorState x = .waiting
    ∨ (s.floorState x = .closing ∧ s.unsent x = some .close ∧ s.inFlightFor x = none) := by
  unfold State.grantable
  cases s.floorState x <;> simp

/-- A seat that neither waits nor has an offer has no entry (R20). -/
theorem State.entryOf_none (notWaiting : s.floorState x ≠ .waiting) (notOffered : s.floorState x ≠ .offered) : s.entryOf x = none := by
  cases entry : s.entryOf x with
  | none => rfl
  | some e =>
    cases state : e.state with
    | waiting => exact absurd (by simp [State.floorState, entry, state]) notWaiting
    | offered => exact absurd (State.floorState_of_offered entry state) notOffered

theorem State.listRemove_none (entry : s.entryOf x = none) (cause : RemovalCause) : s.listRemove x cause = s := by
  simp only [State.listRemove, entry]

/-! ### The OPEN that takes the place of an unsent CLOSE (R64 row 8) -/

/-- Whatever it combines with, an OPEN placed is what the position then has unsent (R32). -/
theorem enqueue_open_unsent (pos : Fin 120) (k : Fin 6) (muted : Bool) (q : List QEntry) :
    ((enqueue pos (.openMic k muted) q).1.find? fun e => e.target = some pos).map QEntry.cmd = some (.openMic k muted) := by
  induction q with
  | nil => simp [enqueue]
  | cons e q ih =>
    by_cases here : e.target = some pos
    · have kept : (coalesce e.cmd (.openMic k muted)).1 = some (.openMic k muted) := by
        cases e.cmd <;> simp [coalesce, Cmd.isIndication, Cmd.isFloor]
      rcases hc : coalesce e.cmd (.openMic k muted) with ⟨cmd, report⟩
      obtain rfl : cmd = some (.openMic k muted) := by rw [hc] at kept; exact kept
      simp [enqueue, here, hc]
    · simpa [enqueue, here] using ih

/-- The channel of a CLOSING seat is CLOSING (R20). -/
theorem State.closing_of_floorState (chan : s.chanOf x = some d) (closing : s.floorState x = .closing) : (s.chan d).state = .closing := by
  obtain ⟨-, -, -, isClosing⟩ := State.chanState_of_floorState chan
  exact isClosing closing

/-- The channel a seat is CLOSING on is found beside the one just taken for it. -/
theorem State.closingElsewhere_eq (chan : s.chanOf x = some d) (closing : (s.chan d).state = .closing) (free : (s.chan c).state = .free)
    (others : ∀ b, b ≠ c → u.chan b = s.chan b) : u.closingElsewhere x c = some d := by
  obtain ⟨-, before, after, all, first⟩ := List.find?_eq_some_iff_append.mp chan
  have apart : d ≠ c := fun same => absurd (closing.symm.trans (same ▸ free)) (by decide)
  refine List.find?_eq_some_iff_append.mpr ⟨?_, before, after, all, fun b mem => ?_⟩
  · rw [others d apart]
    simp [apart, closing, State.chanOf_seat chan]
  · have passed := first b mem
    by_cases taken : b = c
    · simp [taken]
    · simp only [others b taken]
      by_cases state : (s.chan b).state = .closing <;> simp_all

/-- An OPEN that takes the place of an unsent CLOSE ends the close of the channel its seat leaves. -/
theorem State.placeOpen_ends (up : (s.tpc x.trunk).link = .up) (present : (s.seatRec x).availability = .present)
    (unsent : s.unsent x = some .close) (elsewhere : (s.place x (s.chan c).openCmd).closingElsewhere x c = some d) :
    s.placeOpen c x = (s.place x (s.chan c).openCmd).endClose d := by
  have replaced : (s.placeReport x (s.chan c).openCmd).2 = .closeReplaced := by
    rw [State.placeReport, if_pos ⟨up, present⟩]
    exact (enqueue_open_replaced ..).mpr unsent
  simp only [State.place] at elsewhere ⊢
  simp only [State.placeOpen, replaced, if_true, elsewhere]

/-! ### The channel a GRANT opens (R113) -/

/-- The state in which GRANT has opened channel `c` and slot `k` for a seat. -/
def State.grantedTo (s : State) (c : Fin 12) (k : Fin 6) (x : Seat) : State :=
  (s.allotted c (s.openingEntry x (some k) .grant)).place x (.openMic k (s.mutedFlag (s.kindOf x) (s.levelOf x)))

/-- For a seat without an entry and without an unsent CLOSE, GRANT is an allocation. -/
theorem State.grantSeat_eq (entry : s.entryOf x = none) (free : s.freeChan = some c) (slot : s.freeSlot none x.trunk = some k)
    (unsent : s.unsent x ≠ some .close) : s.grantSeat x = s.grantedTo c k x := by
  rw [State.grantSeat, State.listRemove_none entry, State.allocate_eq free slot unsent]
  rfl

/-- A WAITING seat's entry leaves the list first. -/
theorem State.grantSeat_waiting {i : Nat} (waiting : s.floorState x = .waiting) (index : s.listIndex x = some i) (free : s.freeChan = some c)
    (slot : s.freeSlot none x.trunk = some k) (unsent : s.unsent x ≠ some .close) :
    (s.grantSeat x).far = { (s.grantedTo c k x).far with list := s.far.list.eraseIdx i } ∧ (s.grantSeat x).slm = (s.grantedTo c k x).slm
      ∧ (s.grantSeat x).fmx = (s.grantedTo c k x).fmx ∧ (s.grantSeat x).trunks = (s.grantedTo c k x).trunks ∧ (s.grantSeat x).stb = s.stb
      ∧ s.onlyNotices [.listRemove x .opened i (s.far.list.length - 1)] (s.grantSeat x) := by
  obtain ⟨e, entry, -⟩ := State.entry_of_waiting waiting
  have removed := State.listRemove_opened entry index
  generalize hu : s.listRemove x .opened = u at removed
  have far : u.far = { s.far with list := s.far.list.eraseIdx i } := by rw [removed, State.notify_far]
  have trunks : u.trunks = s.trunks := by rw [removed, State.notify_trunks]
  have stb : u.stb = s.stb := by rw [removed, State.notify_stb]
  have slm : u.slm = s.slm := by rw [removed, State.notify_slm]
  have fmx : u.fmx = s.fmx := by rw [removed, State.notify_fmx]
  have told : s.onlyNotices [.listRemove x .opened i (s.far.list.length - 1)] u := by
    rw [removed]
    exact State.onlyNotices_told _ (State.onlyNotices_of rfl rfl rfl rfl rfl rfl rfl rfl rfl)
  have chans : ∀ d, u.chan d = s.chan d := fun d => by rw [State.chan, far]; rfl
  have free' : u.freeChan = some c := by simpa only [State.freeChan, chans] using free
  have slot' : u.freeSlot none x.trunk = some k := by simpa only [State.freeSlot, State.slotHolder, State.counts, chans] using slot
  have unsent' : u.unsent x ≠ some .close := by simpa only [State.unsent, State.tpc, trunks] using unsent
  have kind : u.kindOf x = s.kindOf x := by simp only [State.kindOf, State.classOf, State.seatRec, stb]
  have level : u.levelOf x = s.levelOf x := by simp only [State.levelOf, State.classOf, State.seatRec, stb]
  have muted : ∀ a b, u.mutedFlag a b = s.mutedFlag a b := fun a b => by simp only [State.mutedFlag, far]
  have granted : s.grantSeat x = u.grantedTo c k x := by
    rw [State.grantSeat, hu, State.allocate_eq free' slot' unsent']
    rfl
  rw [granted]
  simp only [State.grantedTo, State.place_far, State.place_slm, State.place_fmx, State.place_stb]
  refine ⟨?_, ?_, ?_, ?_, stb, ?_⟩
  · simp only [State.allotted, State.openingEntry, far, kind, level, muted]
  · simp only [State.allotted, slm]
  · simp only [State.allotted, State.fmxOf, fmx]
  · rw [kind, level, muted]
    exact State.place_trunks_congr _ trunks (by simp only [State.seatRec, State.allotted, stb])
  · exact State.onlyNotices_then (State.onlyNotices_then told (u.onlyNotices_allotted ..)) (State.onlyNotices_place _ _ _)

/-- For a seat CLOSING with its CLOSE unsent, the OPEN takes the place of that CLOSE, which ends the close of its old channel (R64 row 8, R113). -/
theorem State.grantSeat_closing (closing : s.floorState x = .closing) (unsent : s.unsent x = some .close) (chan : s.chanOf x = some d)
    (conditions : s.seatConditions x = true) (free : s.freeChan = some c) (slot : s.freeSlot none x.trunk = some k) :
    s.grantSeat x = (s.grantedTo c k x).endClose d
      ∧ (s.grantedTo c k x).unsent x = some (.openMic k (s.mutedFlag (s.kindOf x) (s.levelOf x))) := by
  obtain ⟨up, -, present, -, -⟩ := State.seatConditions_iff.mp conditions
  have entry : s.entryOf x = none := State.entryOf_none (by rw [closing]; decide) (by rw [closing]; decide)
  have opens : ((s.allotted c (s.openingEntry x (some k) .grant)).chan c).openCmd = .openMic k (s.mutedFlag (s.kindOf x) (s.levelOf x)) := by
    rw [State.allotted_chan]
    rfl
  have elsewhere : (s.grantedTo c k x).closingElsewhere x c = some d :=
    State.closingElsewhere_eq chan (State.closing_of_floorState chan closing) (State.freeChan_free free) fun b other => by
      rw [State.grantedTo, State.place_chan, State.allotted_chan_other other]
  refine ⟨?_, ?_⟩
  · rw [State.grantSeat, State.listRemove_none entry, State.allocate_placeOpen free slot,
      State.placeOpen_ends (s := s.allotted c (s.openingEntry x (some k) .grant)) (d := d) up present unsent (by rw [opens]; exact elsewhere), opens]
    rfl
  · rw [State.grantedTo, State.place_unsent (s := s.allotted c (s.openingEntry x (some k) .grant)) up present, if_pos rfl]
    exact enqueue_open_unsent ..

/-- What GRANT answers a seat that meets every condition (R112, R113). -/
theorem grantBody_ok (grantable : s.grantable x = true) (conditions : s.seatConditions x = true) (room : s.roomConditions none x = true)
    (free : s.freeChan = some c) (slot : s.freeSlot none x.trunk = some k) :
    grantBody x s = ⟨(s.grantSeat x).settle, .ok, [BitVec.ofNat 8 c, BitVec.ofNat 8 k]⟩ := by
  simp only [grantBody, grantable, conditions, room, free, slot, Bool.not_true, Bool.false_eq_true, if_false]
  rfl

end

end Sys2Proof.Machine

namespace Sys2Proof.Proofs

open Sys2Proof.Machine

/-- Settles O50. -/
theorem nextAndGrantGiveTheFloor : Obligations.NextAndGrantGiveTheFloor := by
  unfold Obligations.NextAndGrantGiveTheFloor
  refine ⟨fun s takes => ⟨fun owned => ?_, fun free none => ?_, fun before e rest free list none promotable => ?_,
    fun x c k i confirm free slot unsent index promotable => ?_⟩, fun x s => ?_⟩
  · exact congrArg Host.Outcome.next (State.runRecord_owned takes owned nextBody)
  · exact congrArg Host.Outcome.next (State.runRecord_free takes free (by simp only [nextBody, State.nextPromotable_none none]; rfl))
  · exact congrArg Host.Outcome.next
      (State.runRecord_free takes free (by simp only [nextBody, State.nextPromotable_first list none promotable]; rfl))
  · intro u
    obtain ⟨far, -, -, trunks, stb, told⟩ := State.promote_floor promotable index free slot confirm unsent
    refine ⟨?_, fun d other => ?_, ?_, ?_, trunks, stb, told⟩
    · rw [State.chan, far]
      exact vget_vset_self ..
    · rw [State.chan, far]
      exact vget_vset_other _ _ _ _ other.symm
    · rw [far]
    · rw [far]
  · intro code grant mayOpen takes
    have grantable : s.grantable x = true ↔ mayOpen := s.grantable_iff x
    have answers : ∀ {u status fields}, s.far.holder = none → grantBody x s = ⟨u, status, fields⟩ →
        grant = .next (s.afterRecord u 0x28 status fields) := fun free answer => congrArg Host.Outcome.next (State.runRecord_seat_free takes free answer)
    refine ⟨fun owned => ?_, fun free closed => ?_, fun free opens fails => ?_, fun free opens conditions full => ?_,
      fun c k list conditions room free slot => ?_⟩
    · exact congrArg Host.Outcome.next (State.runRecord_seat_owned takes owned grantBody)
    · exact answers free (if_pos (by simpa using mt grantable.mp closed))
    · refine answers free ?_
      simp only [grantBody, grantable.mpr opens, fails, Bool.not_true, Bool.not_false, Bool.false_eq_true, if_false, if_true]
      rfl
    · refine answers free ?_
      simp only [grantBody, grantable.mpr opens, conditions, full, Bool.not_true, Bool.not_false, Bool.false_eq_true, if_false, if_true]
      rfl
    · intro muted opened granted
      obtain ⟨up, -, present, -, -⟩ := State.seatConditions_iff.mp conditions
      have isOpened : s.grantedTo c k x = opened := by
        rw [State.grantedTo, State.allotted_place]
        simp only [State.openingEntry, s.mutedFlag_eq x]
        rfl
      have grants : ∀ {u : State}, mayOpen → s.grantSeat x = u → granted u := fun may same =>
        answers list (same ▸ grantBody_ok (grantable.mpr may) conditions room free slot)
      have idle : s.floorState x = .idle → s.unsent x ≠ some .close → granted opened := fun idle unsent =>
        grants (.inl idle) ((State.grantSeat_eq (State.entryOf_none (by rw [idle]; decide) (by rw [idle]; decide)) free slot unsent).trans isOpened)
      refine ⟨fun isIdle unsent => ⟨State.place_new up present unsent _, idle isIdle (by rw [unsent]; decide)⟩, idle,
        fun i waiting index unsent => ?_, fun d closing unsent flight chan => ?_⟩
      · obtain ⟨far, slm, fmx, trunks, stb, told⟩ := State.grantSeat_waiting waiting index free slot unsent
        rw [isOpened] at far slm fmx trunks
        exact ⟨_, grants (.inr (.inl waiting)) rfl, far, slm, fmx, trunks, stb, told⟩
      · obtain ⟨ends, replaced⟩ := State.grantSeat_closing closing unsent chan conditions free slot
        rw [isOpened] at ends replaced
        refine ⟨grants (.inr (.inr ⟨closing, unsent, flight⟩)) ends, replaced.trans (by rw [s.mutedFlag_eq x]), fun noSuccessor => ?_⟩
        have state := State.closing_of_floorState chan closing
        have apart : c ≠ d := fun same => absurd (state.symm.trans (same ▸ State.freeChan_free free)) (by decide)
        have old : opened.chan d = s.chan d := vget_vset_other _ _ _ _ apart
        have clock : opened.slmOf d = s.slmOf d := vget_vset_other _ _ _ _ apart
        intro u
        have freed : u = opened.freeChannel d .released := State.endClose_freed (by rwa [old])
        obtain ⟨cleared, others, far, trunks, stb, slm, fmx, told⟩ := State.freed_of_closing (s := opened) (c := d) (x := x) .released
          (by rwa [old]) (by rw [old]; exact State.chanOf_seat chan)
        rw [← freed] at cleared others far trunks stb slm fmx told
        rw [old, clock] at told
        have before : s.onlyNotices [] opened := State.onlyNotices_of rfl rfl rfl rfl rfl rfl rfl rfl rfl
        exact ⟨cleared, others, far, slm, fmx, trunks, stb,
          State.onlyNotices_after before told⟩

end Sys2Proof.Proofs
end

section
/-! PROOF. The list records (O49): INSERT_REQUEST, CANCEL_REQUEST and CLEAR_LIST. -/

namespace Sys2Proof.Machine

section
variable {s u : State} {x : Seat} {c d : Fin 12}

/-! ### What the removal of an entry leaves (R78) -/

theorem State.listRemove_stb (s : State) (x : Seat) (cause : RemovalCause) : (s.listRemove x cause).stb = s.stb := by
  unfold State.listRemove
  split
  · split <;> simp
  · rfl

theorem State.listRemove_slm (s : State) (x : Seat) (cause : RemovalCause) : (s.listRemove x cause).slm = s.slm := by
  unfold State.listRemove
  split
  · split <;> simp
  · rfl

theorem State.listRemove_fmx (s : State) (x : Seat) (cause : RemovalCause) : (s.listRemove x cause).fmx = s.fmx := by
  unfold State.listRemove
  split
  · split <;> simp
  · rfl

theorem State.listRemove_chan (s : State) (x : Seat) (cause : RemovalCause) (d : Fin 12) : (s.listRemove x cause).chan d = s.chan d := by
  rw [State.chan, State.listRemove_far]
  rfl

/-! ### What the end of an offer leaves, whatever the state (R63, R84) -/

/-- A channel freed, or FREE already, changes only its own entry, the open sequence and the promotion trigger of the floor (R63). -/
theorem State.freeChannel_floor (s : State) (c : Fin 12) (cause : CloseCause) :
    ((s.freeChannel c cause).chan c = s.chan c ∨ (s.freeChannel c cause).chan c = Channel.reset)
      ∧ (∀ d, d ≠ c → (s.freeChannel c cause).chan d = s.chan d)
      ∧ (s.freeChannel c cause).far = { s.far with
          channels := (s.freeChannel c cause).far.channels
          openSeq := (s.freeChannel c cause).far.openSeq
          promotionDeferred := (s.freeChannel c cause).far.promotionDeferred } := by
  by_cases free : (s.chan c).state = .free
  · have same : s.freeChannel c cause = s := by simp only [State.freeChannel, free]
    rw [same]
    exact ⟨.inl rfl, fun _ _ => rfl, rfl⟩
  · obtain ⟨cleared, others, far, -⟩ := s.freeChannel_spec c cause free
    refine ⟨.inr cleared, others, ?_⟩
    rw [far]

/-- The end of an offer takes the seat's entry off the list and frees no channel but the seat's own (R84). -/
theorem State.endOffer_floor (s : State) (x : Seat) (removal : RemovalCause) (cause : CloseCause) (withdraw : Bool) :
    (∀ d, (s.endOffer x removal cause withdraw).chan d = s.chan d
        ∨ (s.chanOf x = some d ∧ (s.endOffer x removal cause withdraw).chan d = Channel.reset))
      ∧ (s.endOffer x removal cause withdraw).far = { s.far with
          channels := (s.endOffer x removal cause withdraw).far.channels
          openSeq := (s.endOffer x removal cause withdraw).far.openSeq
          promotionDeferred := (s.endOffer x removal cause withdraw).far.promotionDeferred
          list := s.far.list.eraseP fun e => e.seat = x } := by
  unfold State.endOffer
  dsimp only
  generalize hv : (if withdraw then (s.listRemove x removal).place x .withdraw else s.listRemove x removal) = v
  have far : v.far = { s.far with list := s.far.list.eraseP fun e => e.seat = x } := by
    rw [← hv, ← State.listRemove_far s x removal]
    split <;> simp
  have chans : ∀ d, v.chan d = s.chan d := fun d => by rw [State.chan, far]; rfl
  have chanOf : v.chanOf x = s.chanOf x := by simp only [State.chanOf, chans]
  rw [chanOf]
  cases chan : s.chanOf x with
  | none => exact ⟨fun d => .inl (chans d), by simp only [far]⟩
  | some c =>
    obtain ⟨own, others, frame⟩ := v.freeChannel_floor c cause
    refine ⟨fun d => ?_, ?_⟩
    · by_cases here : d = c
      · subst here
        exact own.imp (fun same => same.trans (chans d)) fun cleared => ⟨rfl, cleared⟩
      · exact .inl ((others d here).trans (chans d))
    · rw [frame, far]

/-! ### Clearing the list from its head (R94) -/

/-- A clearing step takes the seat's first entry off the list, and frees no channel but by its reset. -/
theorem State.clearEntry_floor (s : State) (x : Seat) : (s.clearEntry x).far.list = s.far.list.eraseP (fun e => e.seat = x)
    ∧ (s.clearEntry x).far.holdSet = s.far.holdSet ∧ ∀ d, (s.clearEntry x).chan d = s.chan d ∨ (s.clearEntry x).chan d = Channel.reset := by
  unfold State.clearEntry
  cases entry : s.entryOf x with
  | none => exact ⟨(List.eraseP_of_forall_not fun e listed => List.find?_eq_none.mp entry e listed).symm, rfl, fun _ => .inl rfl⟩
  | some e =>
    cases state : e.state with
    | waiting =>
      simp only [state]
      exact ⟨by rw [State.listRemove_far], by rw [State.listRemove_far], fun d => .inl (State.listRemove_chan ..)⟩
    | offered =>
      simp only [state]
      obtain ⟨chans, far⟩ := s.endOffer_floor x .cleared .controller true
      exact ⟨by rw [far], by rw [far], fun d => (chans d).imp_right And.right⟩

/-- Taking off the entries of all listed seats, each the first of its seat, leaves none. -/
theorem State.clearEntries_floor (l : List Entry) (s : State) (list : s.far.list = l) :
    ((l.map Entry.seat).foldl State.clearEntry s).far.list = []
      ∧ ((l.map Entry.seat).foldl State.clearEntry s).far.holdSet = s.far.holdSet
      ∧ ∀ d, ((l.map Entry.seat).foldl State.clearEntry s).chan d = s.chan d
        ∨ ((l.map Entry.seat).foldl State.clearEntry s).chan d = Channel.reset := by
  induction l generalizing s with
  | nil => exact ⟨list, rfl, fun _ => .inl rfl⟩
  | cons e l ih =>
    obtain ⟨left, held, chans⟩ := s.clearEntry_floor e.seat
    rw [list, List.eraseP_cons_of_pos (by simp)] at left
    obtain ⟨empty, held', chans'⟩ := ih _ left
    rw [List.map_cons, List.foldl_cons]
    exact ⟨empty, held'.trans held, fun d => (chans' d).elim (fun same => by rw [same]; exact chans d) .inr⟩

/-- A list of WAITING entries is cleared without a change of any channel (R94). -/
theorem State.clearEntries_waiting (l : List Entry) (s : State) (list : s.far.list = l) (waiting : ∀ e ∈ l, e.state = .waiting) :
    ((l.map Entry.seat).foldl State.clearEntry s).far = { s.far with list := [] }
      ∧ ((l.map Entry.seat).foldl State.clearEntry s).stb = s.stb ∧ ((l.map Entry.seat).foldl State.clearEntry s).slm = s.slm
      ∧ ((l.map Entry.seat).foldl State.clearEntry s).fmx = s.fmx := by
  induction l generalizing s with
  | nil =>
    have same : s.far = { s.far with list := [] } := by rw [← list]
    exact ⟨same, rfl, rfl, rfl⟩
  | cons e l ih =>
    have entry : s.entryOf e.seat = some e := by simp [State.entryOf, list]
    have step : s.clearEntry e.seat = s.listRemove e.seat .cleared := by
      simp only [State.clearEntry, entry, waiting e List.mem_cons_self]
    have far : (s.clearEntry e.seat).far = { s.far with list := l } := by
      rw [step, State.listRemove_far, list, List.eraseP_cons_of_pos (by simp)]
    obtain ⟨far', stb, slm, fmx⟩ := ih (s.clearEntry e.seat) (by rw [far]) fun e' listed => waiting e' (List.mem_cons_of_mem _ listed)
    rw [List.map_cons, List.foldl_cons]
    refine ⟨by rw [far', far], ?_, ?_, ?_⟩
    · rw [stb, step, State.listRemove_stb]
    · rw [slm, step, State.listRemove_slm]
    · rw [fmx, step, State.listRemove_fmx]

/-! ### Insertion (R74, R92) -/

/-- An entry put at an index: the list, the trigger outside LIST mode, QUEUED and LIST_ADD (R74). -/
theorem State.insertAt_eq (s : State) (x : Seat) (origin : Origin) {index : Nat} (inside : index ≤ s.far.list.length) : s.insertAt x origin index
    = State.notify (.listAdd x index origin (s.far.list.length + 1)) (State.place x .queued { s with far := { s.far with
        list := s.far.list.take index ++ ⟨x, s.kindOf x, s.levelOf x, (s.classOf x).group, origin, .waiting, none, none⟩ :: s.far.list.drop index
        promotionDeferred := if s.mge.settings.mode = .list then s.far.promotionDeferred else true } }) := by
  have length : (s.far.list.take index ++ (⟨x, s.kindOf x, s.levelOf x, (s.classOf x).group, origin, .waiting, none, none⟩ : Entry)
      :: s.far.list.drop index).length = s.far.list.length + 1 := by
    simp only [List.length_append, List.length_cons, List.length_take, List.length_drop]
    omega
  unfold State.insertAt
  dsimp only
  rw [State.modFar_far, length]
  split
  · rfl
  · rw [State.notify_trigger, State.place_trigger]
    rfl

/-- The conditions of INSERT_REQUEST in words (R92 step 5). -/
theorem State.mayWait_iff : s.mayWait x = true ↔ (s.seatRec x).availability = .present ∧ (s.seatRec x).enabled = true
    ∧ s.kindOf x ≠ .listener ∧ (s.tpc x.trunk).link = .up := by
  simp [State.mayWait, and_assoc]

/-- The index used, for a seat that may wait (R92). -/
theorem State.indexUsed_eq (notListener : s.kindOf x ≠ .listener) (index : Nat) : s.indexUsed x index
    = if s.kindOf x = .chair then min index (s.far.list.countP fun e => e.kind = .chair)
      else max (s.far.list.countP fun e => e.kind = .chair) (min index s.far.list.length) := by
  unfold State.indexUsed
  cases kind : s.kindOf x <;> simp_all [State.chairEntries]

theorem State.indexUsed_le (s : State) (x : Seat) (index : Nat) : s.indexUsed x index ≤ s.far.list.length := by
  have chairs : s.chairEntries ≤ s.far.list.length := List.countP_le_length
  unfold State.indexUsed
  split <;> omega

end

end Sys2Proof.Machine

namespace Sys2Proof.Proofs

open Sys2Proof.Machine

/-- Settles O49. -/
theorem listRecordsEditTheList : Obligations.ListRecordsEditTheList := by
  unfold Obligations.ListRecordsEditTheList
  intro x index s code mayWait chairs
  have waits : s.mayWait x = true ↔ mayWait := State.mayWait_iff
  refine ⟨fun takes => ?_, fun takes => ?_, fun takes => ?_⟩
  · have answers : ∀ {u status fields}, s.far.holder = none → insertSeatBody index x s = ⟨u, status, fields⟩ →
        exec (.insertRequest code index) s = .next (s.afterRecord u 0x23 status fields) :=
      fun free answer => congrArg Host.Outcome.next (State.runRecord_seat_free takes free answer)
    refine ⟨fun owned => congrArg Host.Outcome.next (State.runRecord_seat_owned takes owned (insertSeatBody index)),
      fun free fails => answers free ?_, fun free idle may full => answers free ?_, fun free idle may room => ?_⟩
    · unfold insertSeatBody
      split
      · rfl
      · next idle => exact if_pos (by simpa using mt waits.mp (fails.resolve_left idle))
    · simp only [insertSeatBody, idle, waits.mpr may, Config.listCapacity, full, ne_eq, not_true_eq_false, if_false, Bool.not_true,
        Bool.false_eq_true, if_true]
      rfl
    · intro used e
      have ⟨_, _, notListener, _⟩ := may
      have sameIndex : s.indexUsed x index.toNat = used := State.indexUsed_eq notListener _
      have inside : used ≤ s.far.list.length := sameIndex ▸ s.indexUsed_le x index.toNat
      refine answers free ?_
      simp only [insertSeatBody, idle, waits.mpr may, Config.listCapacity, not_le.mpr room, ne_eq, not_true_eq_false, if_false, Bool.not_true,
        Bool.false_eq_true, sameIndex, State.insertAt_eq s x .controller inside]
      by_cases asked : used = index.toNat <;> simp [asked, clampStatus, u8, e]
  · have answers : ∀ {u status fields}, s.far.holder = none → cancelSeatBody x s = ⟨u, status, fields⟩ →
        exec (.cancelRequest code) s = .next (s.afterRecord u 0x24 status fields) :=
      fun free answer => congrArg Host.Outcome.next (State.runRecord_seat_free takes free answer)
    refine ⟨fun owned => congrArg Host.Outcome.next (State.runRecord_seat_owned takes owned cancelSeatBody),
      fun free absent => answers free (by simp only [cancelSeatBody, absent]; rfl), fun e i free entry index => ⟨fun waiting => ?_, ?_⟩⟩
    · refine answers free ?_
      simp only [cancelSeatBody, entry, index, waiting, State.listRemove_eq entry index, true_or, and_self, if_true]
      rfl
    · intro c offered chan state
      obtain ⟨cleared, others, far, trunks, stb, slm, fmx, told⟩ :=
        State.freed_of_endOffer entry offered index chan state .cancelled .controller true
      exact ⟨_, answers free (by simp only [cancelSeatBody, entry, index, offered]; rfl), cleared, others, far, trunks, stb, slm, fmx, told⟩
  · refine ⟨fun owned => congrArg Host.Outcome.next (State.runRecord_owned takes owned clearListBody), fun free => ?_⟩
    obtain ⟨empty, held, chans⟩ := State.clearEntries_floor s.far.list s rfl
    exact ⟨s.clearWholeList, congrArg Host.Outcome.next (State.runRecord_free takes free rfl), empty, chans, held,
      State.clearEntries_waiting s.far.list s rfl⟩

end Sys2Proof.Proofs
end

section
/-! PROOF. CLOSE and CLOSE_ALL (O48). What CLOSE_ALL does to the floor is said once as a relation between states (`State.shuts`) that every channel it
closes keeps; what it does to a named channel is read off at that channel's turn. -/

namespace Sys2Proof.Machine

/-! ### One channel and the rest of the floor -/

/-- `u` differs from `s` on the floor in channel `c`, the open sequence and the promotion trigger only. -/
def State.changesOnly (s : State) (c : Fin 12) (u : State) : Prop :=
  (∀ d, d ≠ c → u.chan d = s.chan d) ∧ u.fmx = s.fmx
    ∧ u.far = { s.far with channels := u.far.channels, openSeq := u.far.openSeq, promotionDeferred := u.far.promotionDeferred }

section
variable {s u v : State} {x : Seat} {c d : Fin 12}

theorem State.changesOnly_trans (first : s.changesOnly c u) (second : u.changesOnly c v) : s.changesOnly c v := by
  obtain ⟨others, fmx, far⟩ := first
  obtain ⟨others', fmx', far'⟩ := second
  refine ⟨fun d other => (others' d other).trans (others d other), fmx'.trans fmx, ?_⟩
  rw [far', far]

theorem State.changesOnly_list (only : s.changesOnly c u) : u.far.list = s.far.list := by
  obtain ⟨-, -, far⟩ := only
  rw [far]

theorem State.changesOnly_of_far (far : u.far = s.far) (fmx : u.fmx = s.fmx) : s.changesOnly c u :=
  ⟨fun d _ => by rw [State.chan, far]; rfl, fmx, by rw [far]⟩

theorem State.place_changesOnly (s : State) (y : Seat) (cmd : Cmd) (c : Fin 12) : s.changesOnly c (s.place y cmd) :=
  State.changesOnly_of_far (s.place_far y cmd) (s.place_fmx y cmd)

theorem State.modChan_changesOnly (s : State) (c : Fin 12) (f : Channel → Channel) : s.changesOnly c (s.modChan c f) :=
  ⟨fun d other => s.modChan_chan_other c d f other.symm, rfl, rfl⟩

theorem State.freeChannel_fmx (s : State) (c : Fin 12) (cause : CloseCause) : (s.freeChannel c cause).fmx = s.fmx := by
  by_cases free : (s.chan c).state = .free
  · simp only [State.freeChannel, free]
  · obtain ⟨-, -, -, -, -, -, fmx, -⟩ := s.freeChannel_spec c cause free
    exact fmx

theorem State.freeChannel_changesOnly (s : State) (c : Fin 12) (cause : CloseCause) : s.changesOnly c (s.freeChannel c cause) := by
  obtain ⟨-, others, far⟩ := s.freeChannel_floor c cause
  exact ⟨others, s.freeChannel_fmx c cause, far⟩

theorem State.enterClosing_changesOnly (s : State) (c : Fin 12) (cause : CloseCause) : s.changesOnly c (s.enterClosing c cause) := by
  unfold State.enterClosing
  dsimp only
  split
  · exact State.changesOnly_trans (s.modChan_changesOnly c _) (State.place_changesOnly _ _ _ c)
  · exact s.modChan_changesOnly c _

theorem State.addClock_changesOnly (s : State) (c d : Fin 12) : s.changesOnly d (s.addClock c) :=
  State.changesOnly_of_far (s.addClock_far c) (by unfold State.addClock; split <;> rfl)

/-- A close request that ends no offer changes no other channel (R60). -/
theorem State.closeRequest_changesOnly (notOffered : (s.chan c).state = .offered → (s.chan c).seat = none) (cause : CloseCause) :
    s.changesOnly c (s.closeRequest c cause) := by
  have closing := s.enterClosing_changesOnly c cause
  unfold State.closeRequest
  cases state : (s.chan c).state with
  | free => exact State.changesOnly_of_far rfl rfl
  | closing => exact State.changesOnly_of_far rfl rfl
  | offered =>
    rw [notOffered state]
    exact s.freeChannel_changesOnly c cause
  | opening =>
    cases (s.chan c).seat with
    | none => exact closing
    | some y =>
      by_cases unsent : s.openUnsent y = true
      · simp only [unsent, if_true]
        exact State.changesOnly_trans (s.place_changesOnly y .close c) (State.freeChannel_changesOnly _ c cause)
      · simp only [unsent]
        exact closing
  | opened =>
    exact State.changesOnly_trans (State.changesOnly_trans closing (State.changesOnly_of_far (c := c) rfl rfl)) (State.addClock_changesOnly _ c c)
  | held => exact State.changesOnly_trans closing (State.addClock_changesOnly _ c c)

/-! ### The channel closed -/

/-- A channel CLOSING or FREE. -/
def Channel.shut (ch : Channel) : Prop := ch.state = .closing ∨ ch.state = .free

/-- What closing channels makes of one of them: nothing, or it is CLOSING, of the same seat and without a successor where it was CLOSING already, or
FREE, as it is after an offer. -/
def Channel.shutFrom (old new : Channel) : Prop :=
  new = old ∨ (old.state ≠ .free ∧ new.shut ∧ (old.state = .closing → new.successor = none) ∧ (old.state = .offered → new.state = .free)
    ∧ (new.state = .free ∨ new.seat = old.seat))

theorem Channel.shutFrom_trans {old mid new : Channel} (first : old.shutFrom mid) (second : mid.shutFrom new) : old.shutFrom new := by
  rcases first with rfl | ⟨busy, shut, successor, offer, seat⟩
  · exact second
  · rcases second with rfl | ⟨busy', shut', successor', -, seat'⟩
    · exact .inr ⟨busy, shut, successor, offer, seat⟩
    · have closing : mid.state = .closing := shut.resolve_right busy'
      exact .inr ⟨busy, shut', fun _ => successor' closing, fun offered => absurd (offer offered) busy',
        seat'.imp_right fun same => same.trans (seat.resolve_left busy')⟩

theorem Channel.shutFrom_reset {old : Channel} (busy : old.state ≠ .free) : old.shutFrom Channel.reset :=
  .inr ⟨busy, .inr rfl, fun _ => rfl, fun _ => rfl, .inl rfl⟩

/-- Once CLOSING or FREE a channel stays so. -/
theorem Channel.shut_of_shutFrom {old new : Channel} (h : old.shutFrom new) (shut : old.shut) : new.shut :=
  h.elim (fun same => same ▸ shut) fun changed => changed.2.1

/-- FREE is the last state. -/
theorem Channel.free_of_shutFrom {old new : Channel} (h : old.shutFrom new) (free : old.state = .free) : new = old :=
  h.resolve_right fun changed => changed.1 free

/-- A CLOSING channel without a successor names none later. -/
theorem Channel.successor_of_shutFrom {old new : Channel} (h : old.shutFrom new) (shut : old.shut) (none : old.successor = none) :
    new.successor = Option.none := by
  rcases h with rfl | ⟨busy, -, successor, -⟩
  · exact none
  · exact successor (shut.resolve_right busy)

/-- A channel still OFFERED is as it was. -/
theorem Channel.eq_of_shutFrom_offered {old new : Channel} (h : old.shutFrom new) (offered : new.state = .offered) : new = old := by
  rcases h with same | ⟨-, shut, -⟩
  · exact same
  · exact absurd offered (by rcases shut with e | e <;> rw [e] <;> decide)

/-- A close request leaves an OPENING, OPEN or HELD channel CLOSING, of the same seat, or FREE (R60). -/
theorem State.closeRequest_shut (holding : (s.chan c).state = .opened ∨ (s.chan c).state = .held ∨ (s.chan c).state = .opening)
    (cause : CloseCause) : ((s.closeRequest c cause).chan c).shut
      ∧ (((s.closeRequest c cause).chan c).state = .free ∨ ((s.closeRequest c cause).chan c).seat = (s.chan c).seat) := by
  have entered : (s.enterClosing c cause).chan c = { s.chan c with state := .closing, closeCause := some cause } := by
    unfold State.enterClosing
    dsimp only
    split <;> simp
  have closing : ∀ {u : State}, u.chan c = (s.enterClosing c cause).chan c →
      (u.chan c).shut ∧ ((u.chan c).state = .free ∨ (u.chan c).seat = (s.chan c).seat) := fun same => by rw [same, entered]; exact ⟨.inl rfl, .inr rfl⟩
  unfold State.closeRequest
  rcases holding with state | state | state
  · simp only [state]
    exact closing (by simp)
  · simp only [state]
    exact closing (by simp)
  · simp only [state]
    split
    · next y _ =>
      split
      · have cleared := ((s.place y .close).freeChannel_spec c cause (by simp [state])).1
        exact ⟨.inr (by rw [cleared]; rfl), .inl (by rw [cleared]; rfl)⟩
      · exact closing rfl
    · exact closing rfl

/-! ### Closing every channel (R68) -/

/-- `u` is `s` with channels closed: each as it was or shut; the entries taken off the list are of seats with a channel OFFERED, one for each such
channel freed; and the mixer, the hold set and the holder as they were. -/
structure State.shuts (s u : State) : Prop where
  chans : ∀ d, (s.chan d).shutFrom (u.chan d)
  kept : ∀ p : Entry → Bool, (∀ d y, (s.chan d).state = .offered → (s.chan d).seat = some y → ∀ e : Entry, e.seat = y → p e = false) →
    u.far.list.filter p = s.far.list.filter p
  fewer : ∀ y, u.far.list.countP (fun e => e.seat = y) ≤ s.far.list.countP (fun e => e.seat = y)
  ended : ∀ d y, (s.chan d).state = .offered → (s.chan d).seat = some y →
    u.chan d = s.chan d ∨ u.far.list.countP (fun e => e.seat = y) ≤ s.far.list.countP (fun e => e.seat = y) - 1
  holdSet : u.far.holdSet = s.far.holdSet
  holder : u.far.holder = s.far.holder
  fmx : u.fmx = s.fmx

theorem State.shuts_refl (s : State) : s.shuts s :=
  ⟨fun _ => .inl rfl, fun _ _ => rfl, fun _ => le_rfl, fun _ _ _ _ => .inl rfl, rfl, rfl, rfl⟩

theorem State.shuts_trans (first : s.shuts u) (second : u.shuts v) : s.shuts v where
  chans d := Channel.shutFrom_trans (first.chans d) (second.chans d)
  kept p apart := (second.kept p fun d y offered seat => by
    have same := Channel.eq_of_shutFrom_offered (first.chans d) offered
    rw [same] at offered seat
    exact apart d y offered seat).trans (first.kept p apart)
  fewer y := (second.fewer y).trans (first.fewer y)
  ended d y offered seat := by
    rcases first.ended d y offered seat with same | fewer
    · rw [← same] at offered seat
      have less := first.fewer y
      exact (second.ended d y offered seat).imp (fun same' => same'.trans same) fun fewer => by omega
    · exact .inr ((second.fewer y).trans fewer)
  holdSet := second.holdSet.trans first.holdSet
  holder := second.holder.trans first.holder
  fmx := second.fmx.trans first.fmx

/-- A change of one channel that ends no offer. -/
theorem State.shuts_of_changesOnly (only : s.changesOnly c u) (list : u.far.list = s.far.list) (own : (s.chan c).shutFrom (u.chan c))
    (notOffered : (s.chan c).state = .offered → (s.chan c).seat = none) : s.shuts u := by
  obtain ⟨others, fmx, far⟩ := only
  refine ⟨fun d => ?_, fun p _ => by rw [list], fun y => by rw [list], fun d y offered seat => ?_, by rw [far], by rw [far], fmx⟩
  · by_cases here : d = c
    · exact here ▸ own
    · exact .inl (others d here)
  · refine .inl (others d fun here => ?_)
    rw [here] at offered seat
    rw [notOffered offered] at seat
    cases seat

/-- Of the entries of a seat one fewer is left, or none, when its first is taken off. -/
theorem countP_eraseP_seat (l : List Entry) (x : Seat) :
    (l.eraseP fun e => e.seat = x).countP (fun e => e.seat = x) = l.countP (fun e => e.seat = x) - 1 := by
  induction l with
  | nil => rfl
  | cons e l ih =>
    by_cases same : e.seat = x
    · simp [same]
    · simp [same, ih]

/-- A filter that passes no entry of a seat does not see one taken off. -/
theorem filter_eraseP_seat (p : Entry → Bool) (x : Seat) (apart : ∀ e : Entry, e.seat = x → p e = false) (l : List Entry) :
    (l.eraseP fun e => e.seat = x).filter p = l.filter p := by
  induction l with
  | nil => rfl
  | cons e l ih =>
    by_cases same : e.seat = x
    · simp [same, apart e same]
    · simp [same, List.filter_cons, ih]

theorem State.endOffer_fmx (s : State) (x : Seat) (removal : RemovalCause) (cause : CloseCause) (withdraw : Bool) :
    (s.endOffer x removal cause withdraw).fmx = s.fmx := by
  have before : (if withdraw then (s.listRemove x removal).place x .withdraw else s.listRemove x removal).fmx = s.fmx := by
    split
    · rw [State.place_fmx, State.listRemove_fmx]
    · exact State.listRemove_fmx ..
  unfold State.endOffer
  dsimp only
  split
  · rw [State.freeChannel_fmx, before]
  · exact before

/-- The end of the offer of a seat with an OFFERED channel. -/
theorem State.endOffer_shuts (state : (s.chan c).state = .offered) (seat : (s.chan c).seat = some x) (removal : RemovalCause) (cause : CloseCause)
    (withdraw : Bool) : s.shuts (s.endOffer x removal cause withdraw) := by
  obtain ⟨chans, far⟩ := s.endOffer_floor x removal cause withdraw
  have list : (s.endOffer x removal cause withdraw).far.list = s.far.list.eraseP fun e => e.seat = x := by rw [far]
  refine ⟨fun d => ?_, fun p apart => ?_, fun y => ?_, fun d y offered isSeat => ?_, by rw [far], by rw [far], State.endOffer_fmx ..⟩
  · rcases chans d with same | ⟨chan, cleared⟩
    · exact .inl same
    · rw [cleared]
      exact Channel.shutFrom_reset (State.chanOf_busy chan)
  · rw [list]
    exact filter_eraseP_seat p x (apart c x state seat) _
  · rw [list]
    exact List.eraseP_sublist.countP_le
  · rcases chans d with same | ⟨chan, -⟩
    · exact .inl same
    · obtain rfl : y = x := Option.some.inj (isSeat.symm.trans (State.chanOf_seat chan))
      rw [list, countP_eraseP_seat]
      exact .inr le_rfl

/-- What CLOSE_ALL makes of a channel at its turn: one that speaks or is about to is shut, one CLOSING loses its successor, and an offer leaves the
list. -/
theorem State.closeEach_spec (s : State) (removal : RemovalCause) (cause : CloseCause) (c : Fin 12) :
    s.shuts (s.closeEach removal cause c)
      ∧ ((s.chan c).state ≠ .offered → ((s.closeEach removal cause c).chan c).shut)
      ∧ ((s.chan c).state = .closing → ((s.closeEach removal cause c).chan c).successor = none)
      ∧ ∀ x, (s.chan c).state = .offered → (s.chan c).seat = some x →
        (s.closeEach removal cause c).far.list = s.far.list.eraseP (fun e => e.seat = x)
          ∧ (s.chanOf x = some c → ((s.closeEach removal cause c).chan c).state = .free) := by
  have request : ∀ holding : (s.chan c).state = .opened ∨ (s.chan c).state = .held ∨ (s.chan c).state = .opening,
      s.shuts (s.closeRequest c cause) ∧ ((s.closeRequest c cause).chan c).shut := fun holding => by
    have notOffered : (s.chan c).state ≠ .offered := by rcases holding with e | e | e <;> rw [e] <;> decide
    have busy : (s.chan c).state ≠ .free := by rcases holding with e | e | e <;> rw [e] <;> decide
    have notClosing : (s.chan c).state ≠ .closing := by rcases holding with e | e | e <;> rw [e] <;> decide
    have only := State.closeRequest_changesOnly (fun offered => absurd offered notOffered) cause
    obtain ⟨shut, seat⟩ := State.closeRequest_shut holding cause
    exact ⟨State.shuts_of_changesOnly only (State.changesOnly_list only)
      (.inr ⟨busy, shut, fun closing => absurd closing notClosing, fun offered => absurd offered notOffered, seat⟩)
      fun offered => absurd offered notOffered, shut⟩
  unfold State.closeEach
  cases state : (s.chan c).state with
  | free => exact ⟨s.shuts_refl, fun _ => .inr state, nofun, nofun⟩
  | opening => exact ⟨(request (.inr (.inr state))).1, fun _ => (request (.inr (.inr state))).2, nofun, nofun⟩
  | opened => exact ⟨(request (.inl state)).1, fun _ => (request (.inl state)).2, nofun, nofun⟩
  | held => exact ⟨(request (.inr (.inl state))).1, fun _ => (request (.inr (.inl state))).2, nofun, nofun⟩
  | closing =>
    have own : (s.modChan c fun ch => { ch with successor := none }).chan c = { s.chan c with successor := none } := s.modChan_chan_self c _
    refine ⟨State.shuts_of_changesOnly (s.modChan_changesOnly c _) rfl ?_ fun offered => absurd (state.symm.trans offered) (by decide),
      fun _ => ?_, fun _ => ?_, nofun⟩
    · rw [own]
      exact .inr ⟨by rw [state]; decide, .inl state, fun _ => rfl, fun offered => absurd (state.symm.trans offered) (by decide), .inr rfl⟩
    · exact .inl (by rw [own]; exact state)
    · rw [own]
  | offered =>
    cases seat : (s.chan c).seat with
    | none =>
      have freed : s.closeRequest c cause = s.freeChannel c cause := by simp only [State.closeRequest, state, seat]
      have cleared := (s.freeChannel_spec c cause (by rw [state]; decide)).1
      have only := s.freeChannel_changesOnly c cause
      simp only [freed]
      refine ⟨State.shuts_of_changesOnly only (State.changesOnly_list only) ?_ fun _ => seat, nofun, nofun, nofun⟩
      rw [cleared]
      exact Channel.shutFrom_reset (by rw [state]; decide)
    | some x =>
      refine ⟨State.endOffer_shuts state seat removal cause true, nofun, nofun, fun y _ same => ?_⟩
      obtain rfl : x = y := Option.some.inj same
      obtain ⟨chans, far⟩ := s.endOffer_floor x removal cause true
      refine ⟨by rw [far], fun chan => ?_⟩
      unfold State.endOffer
      dsimp only
      generalize hv : (if true then (s.listRemove x removal).place x .withdraw else s.listRemove x removal) = v
      have same : ∀ d, v.chan d = s.chan d := fun d => by rw [← hv, if_pos rfl, State.place_chan, State.listRemove_chan]
      have chan' : v.chanOf x = some c := by simpa only [State.chanOf, same] using chan
      rw [chan']
      dsimp only
      rw [(v.freeChannel_spec c cause (by rw [same, state]; decide)).1]
      rfl

/-- CLOSE_ALL over any channels. -/
theorem State.closeChans_shuts (removal : RemovalCause) (cause : CloseCause) (cs : List (Fin 12)) (s : State) :
    s.shuts (cs.foldl (State.closeEach removal cause) s) := by
  induction cs generalizing s with
  | nil => exact s.shuts_refl
  | cons c cs ih => exact State.shuts_trans (s.closeEach_spec removal cause c).1 (ih _)

/-- The turn of a channel: what came before it and what comes after only shuts channels. -/
theorem State.closeChans_turn (removal : RemovalCause) (cause : CloseCause) {cs : List (Fin 12)} (mem : c ∈ cs) (s : State) :
    ∃ a, s.shuts a ∧ (a.closeEach removal cause c).shuts (cs.foldl (State.closeEach removal cause) s) := by
  obtain ⟨before, after, rfl⟩ := List.append_of_mem mem
  refine ⟨before.foldl (State.closeEach removal cause) s, State.closeChans_shuts .., ?_⟩
  rw [List.foldl_append, List.foldl_cons]
  exact State.closeChans_shuts ..

theorem State.mem_busyChans : c ∈ s.busyChans ↔ (s.chan c).state ≠ .free := by
  simp only [State.busyChans, List.mem_filter, decide_eq_true_eq]
  exact and_iff_right (List.mem_finRange c)

/-- Shutting other channels leaves a seat the channel it had, while that is as it was. -/
theorem State.chanOf_of_shuts (shuts : s.shuts u) (chan : s.chanOf x = some c) (same : u.chan c = s.chan c) : u.chanOf x = some c := by
  obtain ⟨found, before, after, all, first⟩ := List.find?_eq_some_iff_append.mp chan
  refine List.find?_eq_some_iff_append.mpr ⟨by rw [same]; exact found, before, after, all, fun d mem => ?_⟩
  have passed := first d mem
  rcases shuts.chans d with same' | ⟨busy, -, -, -, free | seat⟩
  · rw [same']
    exact passed
  · simp [free]
  · have notSeat : (s.chan d).seat ≠ some x := fun isSeat => absurd passed (by simp [busy, isSeat])
    simp [seat, notSeat]

/-- What CLOSE_ALL makes of every channel (R68). -/
theorem State.closeAll_chans (removal : RemovalCause) (cause : CloseCause) (s : State) (c : Fin 12) :
    let u := s.busyChans.foldl (State.closeEach removal cause) s
    ((s.chan c).state = .opened ∨ (s.chan c).state = .held ∨ (s.chan c).state = .opening → (u.chan c).shut)
      ∧ ((s.chan c).state = .closing → (u.chan c).successor = none)
      ∧ (∀ x, (s.chan c).state = .offered → (s.chan c).seat = some x → s.chanOf x = some c → (u.chan c).state = .free)
      ∧ (∀ x, (s.chan c).state = .offered → (s.chan c).seat = some x →
        u.far.list.countP (fun e => e.seat = x) ≤ s.far.list.countP (fun e => e.seat = x) - 1) := by
  intro u
  by_cases free : (s.chan c).state = .free
  · simp [free]
  obtain ⟨a, before, after⟩ := State.closeChans_turn removal cause (State.mem_busyChans.mpr free) s
  obtain ⟨-, shut, successor, ends⟩ := a.closeEach_spec removal cause c
  refine ⟨fun holding => Channel.shut_of_shutFrom (after.chans c) ?_, fun closing => ?_, fun x offered seat chan => ?_, fun x offered seat => ?_⟩
  · refine shut fun offered => ?_
    rw [Channel.eq_of_shutFrom_offered (before.chans c) offered] at offered
    rcases holding with e | e | e <;> exact absurd (e.symm.trans offered) (by decide)
  · have kept : (a.chan c).shut := Channel.shut_of_shutFrom (before.chans c) (.inl closing)
    have now : ((a.closeEach removal cause c).chan c).successor = none := by
      rcases before.chans c with same | ⟨-, -, none, -⟩
      · exact successor (by rw [same]; exact closing)
      · exact Channel.successor_of_shutFrom ((a.closeEach_spec removal cause c).1.chans c) kept (none closing)
    exact Channel.successor_of_shutFrom (after.chans c) (Channel.shut_of_shutFrom ((a.closeEach_spec removal cause c).1.chans c) kept) now
  · have now : ((a.closeEach removal cause c).chan c).state = .free := by
      rcases before.chans c with same | ⟨-, -, -, free, -⟩
      · exact (ends x (by rw [same]; exact offered) (by rw [same]; exact seat)).2 (State.chanOf_of_shuts before chan same)
      · have gone := free offered
        rw [Channel.free_of_shutFrom ((a.closeEach_spec removal cause c).1.chans c) gone]
        exact gone
    rw [Channel.free_of_shutFrom (after.chans c) now]
    exact now
  · refine (after.fewer x).trans ?_
    rcases before.ended c x offered seat with same | fewer
    · rw [(ends x (by rw [same]; exact offered) (by rw [same]; exact seat)).1, countP_eraseP_seat]
      exact Nat.sub_le_sub_right (before.fewer x) 1
    · exact ((a.closeEach_spec removal cause c).1.fewer x).trans fewer

/-! ### CLOSE by floor state (R67) -/

/-- A SUCCEEDING seat has no channel of its own (R20). -/
theorem State.chanOf_of_succeeding (state : s.floorState x = .succeeding) : s.chanOf x = none := by
  unfold State.floorState at state
  cases entry : s.entryOf x with
  | some e => cases entryState : e.state <;> simp [entry, entryState] at state
  | none =>
    cases chan : s.chanOf x with
    | none => rfl
    | some c => cases chanState : (s.chan c).state <;> simp [entry, chan, chanState] at state

/-- The answer of CLOSE to a seat with a channel. -/
theorem closeSeatBody_ok (notIdle : s.floorState x ≠ .idle) (notWaiting : s.floorState x ≠ .waiting) (channel : s.channelOf x = some c)
    (named : s.closeNamed x = u) : closeSeatBody x s = ⟨u.settle, .ok, [BitVec.ofNat 8 c, BitVec.ofNat 8 (u.settle.floorState x).code]⟩ := by
  simp only [closeSeatBody, notIdle, notWaiting, or_self, if_false, channel, named]
  rfl

theorem State.channelOf_chan (chan : s.chanOf x = some c) : s.channelOf x = some c := by simp [State.channelOf, chan]

end

end Sys2Proof.Machine

namespace Sys2Proof.Proofs

open Sys2Proof.Machine

/-- Settles O48. -/
theorem closeRecordsCloseChannels : Obligations.CloseRecordsCloseChannels := by
  unfold Obligations.CloseRecordsCloseChannels
  refine ⟨fun x s takes => ?_, fun s takes => ?_⟩
  · intro close closed
    have answers : ∀ {u status fields}, closeSeatBody x s = ⟨u, status, fields⟩ → close = .next (s.afterRecord u 0x20 status fields) :=
      fun answer => congrArg Host.Outcome.next (State.runRecord_answer takes _ ((onSeat_seatCode x closeSeatBody s).trans answer))
    have closes : ∀ {c u}, s.floorState x ≠ .idle → s.floorState x ≠ .waiting → s.channelOf x = some c → s.closeNamed x = u →
        closed c u := fun notIdle notWaiting channel named => answers (closeSeatBody_ok notIdle notWaiting channel named)
    have requested : ∀ {c}, s.floorState x = .opening ∨ s.floorState x = .opened ∨ s.floorState x = .held → s.chanOf x = some c →
        closed c (s.closeRequest c .controller) := fun state chan => by
      refine closes ?_ ?_ (State.channelOf_chan chan) ?_
      · rcases state with e | e | e <;> rw [e] <;> decide
      · rcases state with e | e | e <;> rw [e] <;> decide
      · rcases state with e | e | e <;> simp only [State.closeNamed, State.closeSeat, e, chan]
    refine ⟨fun state => ?_, fun c state chan => ?_, fun c state chan => ?_, fun c state chan unsent => ?_,
      fun e i c entry offered index chan state => ?_, fun c state successor => ?_⟩
    · exact answers (if_pos state)
    · exact closes (by rw [state]; decide) (by rw [state]; decide) (State.channelOf_chan chan) (by simp only [State.closeNamed, state])
    · have holding : s.floorState x = .opening ∨ s.floorState x = .opened ∨ s.floorState x = .held := state.imp_left And.left
      have run := requested holding chan
      have ends := State.closingOf_floorState .controller chan state
      generalize s.closeRequest c .controller = u at run ends
      obtain ⟨entry, others, far, trunks, fmx, slm, stb, told⟩ := ends
      obtain ⟨opened, opening⟩ := State.chanState_iff_floorState chan holding
      simp only [opened, opening] at slm stb
      refine ⟨u, run, entry, others, far, fmx, trunks, slm.trans ?_, stb, told⟩
      split <;> rfl
    · have run := requested (.inl state) chan
      have ends := State.freed_of_openUnsent .controller ((State.chanState_of_floorState chan).1 state) (State.chanOf_seat chan) unsent
      generalize s.closeRequest c .controller = u at run ends
      exact ⟨u, run, ends⟩
    · have floor := State.floorState_of_offered entry offered
      have run : closed c (s.endOffer x .cancelled .controller true) :=
        closes (by rw [floor]; decide) (by rw [floor]; decide) (State.channelOf_chan chan)
          (by simp only [State.closeNamed, State.closeSeat, State.closeRequest, floor, chan, state, State.chanOf_seat chan])
      have ends := State.freed_of_endOffer entry offered index chan state .cancelled .controller true
      generalize s.endOffer x .cancelled .controller true = u at run ends
      exact ⟨u, run, ends⟩
    · refine closes (by rw [state]; decide) (by rw [state]; decide) ?_ ?_
      · simp only [State.channelOf, State.chanOf_of_succeeding state, successor]
        rfl
      · simp only [State.closeNamed, state]
        exact State.dropSuccession_eq successor
  · have chans := State.closeAll_chans .cancelled .closeAll s
    have shuts := State.closeChans_shuts .cancelled .closeAll s.busyChans s
    have frame := (Moves.foldl (o := false) _ (fun a c => a.closeEach_moves .cancelled .closeAll c) s.busyChans s).frame
    have run : exec .closeAll s = .next (s.afterRecord (s.busyChans.foldl (State.closeEach .cancelled .closeAll) s).settle 0x21 .ok
        [BitVec.ofNat 8 (allChans.countP fun c => (s.chan c).state ≠ .free)]) := by
      rw [List.countP_eq_length_filter]
      exact congrArg Host.Outcome.next (State.runRecord_answer takes _ rfl)
    generalize s.busyChans.foldl (State.closeEach .cancelled .closeAll) s = u at chans shuts frame run
    obtain ⟨-, -, -, -, -, -, classes, zones, settings, -⟩ := frame
    have stays : ∀ p : Entry → Bool, (∀ e, p e = decide (∀ c, (s.chan c).state = .offered → (s.chan c).seat ≠ some e.seat)) →
        u.far.list.filter p = s.far.list.filter p := fun p isStays => shuts.kept p fun d y offered seat e same => by
      rw [isStays e, decide_eq_false_iff_not]
      exact fun none => none d offered (same ▸ seat)
    refine ⟨u, run, fun c => ?_, stays _ fun _ => rfl, fun c => ?_, fun noOffer => ?_, shuts.holdSet, shuts.holder, settings, classes, zones,
      shuts.fmx⟩
    · obtain ⟨speaks, closing, offered, -⟩ := chans c
      exact ⟨speaks, closing, offered, fun free => Channel.free_of_shutFrom (shuts.chans c) free⟩
    · obtain ⟨-, -, -, fewer⟩ := chans c
      exact fewer
    · simpa using stays (fun _ => true) fun e => (decide_eq_true fun c offered => absurd offered (noOffer c)).symm

end Sys2Proof.Proofs
end

section
/-! PROOF. PRIORITY_DOWN (O34): a chair joins the hold set, asks for a channel by bypass, and a risen hold level strikes the delegates below it. -/

namespace Sys2Proof.Machine

/-! ### What leaves the hold set and level alone -/

/-- `u` has the hold set and the hold level of `s`. -/
def State.sameHold (s u : State) : Prop := u.far.holdSet = s.far.holdSet ∧ u.far.holdLevel = s.far.holdLevel

section
variable {s u v : State} {x y : Seat} {c : Fin 12} {k : Fin 6}

theorem State.sameHold_refl (s : State) : s.sameHold s := ⟨rfl, rfl⟩

theorem State.sameHold_trans (first : s.sameHold u) (second : u.sameHold v) : s.sameHold v :=
  ⟨second.1.trans first.1, second.2.trans first.2⟩

theorem State.sameHold_of_far (far : u.far = s.far) : s.sameHold u := ⟨by rw [far], by rw [far]⟩

theorem State.sameHold_of_changesOnly (only : s.changesOnly c u) : s.sameHold u := by
  obtain ⟨-, -, far⟩ := only
  exact ⟨by rw [far], by rw [far]⟩

theorem State.place_sameHold (s : State) (x : Seat) (cmd : Cmd) : s.sameHold (s.place x cmd) := State.sameHold_of_far (s.place_far x cmd)

theorem State.placeReport_sameHold (s : State) (x : Seat) (cmd : Cmd) : s.sameHold (s.placeReport x cmd).1 :=
  State.sameHold_of_far (s.placeReport_far x cmd)

theorem State.handover_sameHold (s : State) (c : Fin 12) (x : Seat) : s.sameHold (s.handover c x) := by
  constructor <;> rw [State.handover_far] <;> rfl

theorem State.endCloseN_sameHold (n : Nat) (s : State) (c : Fin 12) : s.sameHold (s.endCloseN n c) := by
  induction n generalizing s c with
  | zero => exact s.sameHold_refl
  | succ n ih =>
    have freed : s.sameHold (s.freeChannel c .released) := State.sameHold_of_changesOnly (s.freeChannel_changesOnly c _)
    unfold State.endCloseN
    split
    · exact freed
    · next y _ =>
      have placed := State.sameHold_trans (s.handover_sameHold c y) (State.placeReport_sameHold _ y ((s.handover c y).chan c).openCmd)
      split
      · dsimp only
        split
        · split
          · exact State.sameHold_trans placed (ih _ _)
          · exact placed
        · exact placed
      · exact freed

theorem State.placeOpen_sameHold (s : State) (c : Fin 12) (x : Seat) : s.sameHold (s.placeOpen c x) := by
  have placed := s.placeReport_sameHold x (s.chan c).openCmd
  unfold State.placeOpen
  dsimp only
  split
  · split
    · exact State.sameHold_trans placed (State.endCloseN_sameHold ..)
    · exact placed
  · exact placed

theorem State.allocate_sameHold (s : State) (x : Seat) (cause : OpeningCause) : s.sameHold (s.allocate x cause) := by
  unfold State.allocate
  split
  · next c k _ _ =>
    exact State.sameHold_trans (s.sameHold_refl : s.sameHold (s.allotted c (s.openingEntry x (some k) cause))) (State.placeOpen_sameHold ..)
  · exact s.sameHold_refl

theorem State.insertRequest_sameHold (s : State) (x : Seat) (origin : Origin) : s.sameHold (s.insertRequest x origin) := by
  unfold State.insertRequest
  split
  · exact s.place_sameHold x .refused
  · unfold State.insertAt
    dsimp only
    split
    · constructor <;> simp
    · constructor <;> simp [State.trigger]

theorem State.replaceOr_sameHold (s : State) (x : Seat) (origin : Origin) : s.sameHold (s.replaceOr x fun a => a.insertRequest x origin) := by
  unfold State.replaceOr
  split
  · next c candidate =>
    have speaks := State.candidate_state candidate
    have only := State.closeRequest_changesOnly (s := s) (c := c)
      (fun offered => by rcases speaks with e | e <;> exact absurd (e.symm.trans offered) (by decide)) .replaced
    exact State.sameHold_trans (State.sameHold_of_changesOnly only) (State.sameHold_of_changesOnly (State.modChan_changesOnly _ c _))
  · exact s.insertRequest_sameHold x origin

/-- A chair's request does not touch the hold (R107). -/
theorem State.chairBypass_sameHold (s : State) (x : Seat) : s.sameHold (s.chairBypass x) := by
  unfold State.chairBypass
  dsimp only
  split
  · exact s.insertRequest_sameHold x .chairBypass
  · split
    · exact s.allocate_sameHold x .chair
    · exact s.replaceOr_sameHold x .chairBypass

/-! ### The chair joins (R117, R118) -/

/-- What PRIORITY_DOWN of a chair comes to (R118). -/
theorem exec_priorityDown {t : Fin 4} {position : Fin 128} {serial : Fin 16} (taken : s.takesEvent t position serial x)
    (chair : s.kindOf x = .chair) (arg : Byte) :
    exec (.priorityDown t position serial arg) s = .next ((s.afterIntake x serial).priorityPressed x).settle := by
  have run := exec_seatEventOf .priorityDown t position serial arg s
  rw [State.seatEvent_eq taken] at run
  have chair' : (s.afterIntake x serial).kindOf x = .chair := by rw [State.afterIntake_kindOf, chair]
  refine run.trans ?_
  simp only [State.dispatch, State.chairEvent, if_pos chair']

theorem State.joinHold_eq (s : State) (x : Seat) : s.joinHold x
    = State.notify (.hold (some x) .joined (s.levelOfMembers (seatInsert x s.far.holdSet)) (seatInsert x s.far.holdSet).length)
      { s with far := { s.far with holdSet := seatInsert x s.far.holdSet, holdLevel := s.levelOfMembers (seatInsert x s.far.holdSet) } } := rfl

/-- A floor state depends on the list and the channels, not on the hold (R20). -/
theorem State.joinHold_floorState (s : State) (x y : Seat) : (s.joinHold x).floorState y = s.floorState y :=
  (State.floorState_congr (State.notify_far ..) y).trans rfl

theorem State.priorityPressed_ignored (h : x ∈ s.far.holdSet ∨ (s.seatRec x).enabled = false) : s.priorityPressed x = s :=
  if_pos (by simpa using h)

/-- A chair joined, and its request made if it is IDLE (R118). -/
def State.joinedAsking (s : State) (x : Seat) : State := if s.floorState x = .idle then (s.joinHold x).chairBypass x else s.joinHold x

theorem State.joinedAsking_sameHold (s : State) (x : Seat) : (s.joinHold x).sameHold (s.joinedAsking x) := by
  unfold State.joinedAsking
  split
  · exact State.chairBypass_sameHold _ x
  · exact State.sameHold_refl _

/-- The press of an enabled chair that is not a member: a level risen by its joining strikes after its request (R118). -/
theorem State.priorityPressed_joins (outside : x ∉ s.far.holdSet) (enabled : (s.seatRec x).enabled = true) : s.priorityPressed x
    = if s.far.holdLevel < (s.joinHold x).far.holdLevel then (s.joinedAsking x).rise else s.joinedAsking x := by
  have joins : ¬(x ∈ s.far.holdSet ∨ !(s.seatRec x).enabled) := by simp [outside, enabled]
  simp only [State.priorityPressed, if_neg joins, State.joinHold_floorState, ← (s.joinedAsking_sameHold x).2]
  rfl

/-! ### The chair's request (R107, R108) -/

/-- Within a batch, and where the chair is not eligible and there is no candidate, the request is an insertion (R107, R108). -/
theorem State.chairBypass_inserts (h : s.mge.batch ≠ none ∨ (s.eligible x = false ∧ s.candidate x = none)) :
    s.chairBypass x = s.insertRequest x .chairBypass := by
  unfold State.chairBypass
  dsimp only
  split
  · rfl
  · next noBatch =>
    obtain ⟨notEligible, none⟩ := h.resolve_left (by simpa using noBatch)
    simp only [notEligible, Bool.false_eq_true, if_false, State.replaceOr, none]

/-- A chair goes in after the chairs listed (R75). -/
theorem State.insertRequest_chair (chair : s.kindOf x = .chair) (room : s.far.list.length < 64) (origin : Origin) :
    s.insertRequest x origin = s.insertAt x origin (s.far.list.findIdx fun e => e.kind = .delegate) := by
  simp only [State.insertRequest, Config.listCapacity, not_le.mpr room, if_false, chair, insertionIndex]

/-- A full list refuses a request (R76). -/
theorem State.insertRequest_full (full : 64 ≤ s.far.list.length) (origin : Origin) : s.insertRequest x origin
    = { s.place x .refused with mge := { s.mge with refused := min 65535 (s.mge.refused + 1), flags := flagsSet .queueFull s.mge.flags } } := by
  simp only [State.insertRequest, Config.listCapacity, full, if_true]
  rw [s.place_eq]
  rfl

end

end Sys2Proof.Machine

namespace Sys2Proof.Proofs

open Sys2Proof.Machine

/-- Settles O34: the rise is `rise_risen`, and a request leaves the hold alone, so the level met is that of the joined set. -/
theorem priorityDownRaisesTheHold : Obligations.PriorityDownRaisesTheHold := by
  unfold Obligations.PriorityDownRaisesTheHold
  refine ⟨fun t position serial arg s x taken chair => ?_, fun s x chair => ?_⟩
  · intro a members level joined press
    have presses : ∀ {u : State}, a.priorityPressed x = u → press = .next u.settle := fun same =>
      (exec_priorityDown taken chair arg).trans (settled_congr same)
    have joins : a.joinHold x = joined := by
      rw [State.joinHold_eq, State.afterIntake_far, State.afterIntake_levelOfMembers]
    have far : joined.far = { s.far with holdSet := members, holdLevel := level } := State.notify_far ..
    have chan : ∀ c, joined.chan c = s.chan c := fun c => by rw [State.chan, far]; rfl
    have settings : joined.mge.settings = s.mge.settings := (State.notify_settings ..).trans (s.afterIntake_settings x serial)
    have sameEnabled : (a.seatRec x).enabled = (s.seatRec x).enabled := by rw [State.afterIntake_seatRec]
    refine ⟨fun h => presses (State.priorityPressed_ignored (by rwa [State.afterIntake_far, sameEnabled])), fun outside enabled => ?_⟩
    have pressed := State.priorityPressed_joins (s := a) (x := x) (by rwa [State.afterIntake_far]) (sameEnabled.trans enabled)
    have floor : a.floorState x = s.floorState x := s.afterIntake_floorState x serial
    have before : a.far = s.far := s.afterIntake_far x serial
    simp only [State.joinedAsking, joins, far, floor, before] at pressed
    have struck : ∀ {u v : State}, joined.sameHold u → u.risen v → v.far.holdSet = members ∧ v.far.holdLevel = level
        ∧ ∀ c l, (v.chan c).state = .opened → (v.chan c).kind = some .delegate → (v.chan c).level = some l → level ≤ l := by
      intro u v ⟨set, met⟩ risen
      have none := State.risen_noneOpen risen
      obtain ⟨isFar, -⟩ := risen
      simp only [far] at set met
      rw [met] at none
      exact ⟨by rw [isFar]; exact set, by rw [isFar]; exact met, none⟩
    refine ⟨fun notIdle low => presses ?_, fun notIdle rises => ?_, fun idle low => presses ?_, fun idle rises => ?_⟩
    · rw [pressed, if_neg (not_lt.mpr low), if_neg notIdle]
    · have risen := joined.rise_risen
      have run : press = .next joined.rise.settle := presses (by rw [pressed, if_pos rises, if_neg notIdle])
      obtain ⟨-, -, none⟩ := struck joined.sameHold_refl risen
      generalize joined.rise = u at risen run none
      have isRisen := risen
      obtain ⟨isFar, same, hit, -, -, fmx, -, told⟩ := isRisen
      refine ⟨u, run, risen, ?_, none, fun c notOpen => ?_, fun c => ?_, ?_, ?_⟩
      · rw [isFar, far]
      · rw [(same c (.inl (by rwa [chan]))).1, chan]
      · rw [← chan c]
        by_cases strikes : (joined.chan c).state = .opened ∧ joined.belowHold c = true
        · rw [(hit c strikes.1 strikes.2).1]
          split <;> exact ⟨rfl, rfl⟩
        · rw [(same c (by by_cases opened : (joined.chan c).state = .opened <;> simp_all)).1]
          exact ⟨rfl, rfl⟩
      · rw [fmx]
        exact (State.notify_fmx ..).trans (s.afterIntake_fmx x serial)
      · have first : a.onlyNotices [.hold (some x) .joined level members.length] joined :=
          State.onlyNotices_told _ (State.onlyNotices_of rfl rfl rfl rfl rfl rfl rfl rfl rfl)
        simp only [chan, settings] at told
        exact State.onlyNotices_trans first told
    · rw [pressed, if_neg (not_lt.mpr low), if_pos idle]
    · have risen := (joined.chairBypass x).rise_risen
      have run : press = .next (joined.chairBypass x).rise.settle := presses (by rw [pressed, if_pos rises, if_pos idle])
      exact ⟨run, _, run, risen, struck (joined.chairBypass_sameHold x) risen⟩
  · intro i e
    have inserts := State.chairBypass_inserts (s := s) (x := x)
    refine ⟨fun h => ⟨fun room => ?_, fun full => (inserts h).trans (State.insertRequest_full full _)⟩,
      fun c k batch eligible unsent free slot => ?_, fun c y batch notEligible candidate seat => ?_⟩
    · have inside : i ≤ s.far.list.length := List.findIdx_le_length
      rw [inserts h, State.insertRequest_chair chair room, State.insertAt_eq s x _ inside, chair]
    · have bypass : s.chairBypass x = s.allocate x .chair := by
        simp only [State.chairBypass, batch, eligible, Option.isSome_none, Bool.false_eq_true, if_false, if_true]
      rw [bypass, State.allocate_eq free slot unsent, State.mutedFlag_of_eligible eligible, State.allotted_place, s.place_eq]
      simp only [State.openingEntry, chair]
      rfl
    · have bypass : s.chairBypass x = s.replaceChan c x := by
        simp only [State.chairBypass, batch, notEligible, Option.isSome_none, Bool.false_eq_true, if_false, State.replaceOr, candidate]
      refine ⟨s.closeRequest c .replaced, ?_, bypass⟩
      rcases State.candidate_state candidate with state | state
      · exact State.closingOf_opened .replaced state seat
      · exact State.closingOf_held .replaced state seat

end Sys2Proof.Proofs
end

section
/-! PROOF. DECISECOND_EXPIRY (O14): clocks advance and are compared, deadlines are lowered and offers lapse, and the tenth brings a second expiry. -/

namespace Sys2Proof.Machine

section
variable {s u : State} {c d : Fin 12} {x : Seat}

/-! ### A comparison (R139 to R141) -/

/-- `s` with the seat of channel `c` warned, if its warning is due (R140). -/
def State.warnedAt (s : State) (c : Fin 12) (x : Seat) : State :=
  if s.allowanceOf x ≠ 0 ∧ s.mge.settings.warnLead ≠ 0 ∧ (s.slmOf c).warned = false
      ∧ (s.allowanceOf x - s.mge.settings.warnLead) * 10 ≤ (s.slmOf c).clock then
    State.notify (.warn c x (s.slmOf c).clock (s.allowanceOf x) s.mge.settings.warnLead)
      (State.place x .warn { s with slm := vset s.slm c { s.slmOf c with warned := true } })
  else s

theorem State.warnStep_eq (opened : (s.chan c).state = .opened) (seat : (s.chan c).seat = some x) : s.warnStep c = s.warnedAt c x := by
  simp only [State.warnStep, opened, seat, State.warnedAt, State.warnDue, Bool.and_eq_true, decide_eq_true_eq, Bool.not_eq_true', and_assoc]
  rfl

/-- A warning changes nothing an expiry test reads (R140, R141). -/
theorem State.warnedAt_spec (s : State) (c : Fin 12) (x : Seat) : (s.warnedAt c x).far = s.far ∧ (s.warnedAt c x).stb = s.stb
    ∧ ((s.warnedAt c x).slmOf c).clock = (s.slmOf c).clock ∧ ((s.warnedAt c x).slmOf c).overrun = (s.slmOf c).overrun := by
  unfold State.warnedAt
  split
  · refine ⟨by rw [State.notify_far, State.place_far], by rw [State.notify_stb, State.place_stb], ?_, ?_⟩
    all_goals
      rw [State.slmOf, State.notify_slm, State.place_slm, vget_vset_self]
  · exact ⟨rfl, rfl, rfl, rfl⟩

/-- `s` with the expiry of channel `c` of seat `x` marked and told, once (R141, R150). -/
def State.expiredAt (s : State) (c : Fin 12) (x : Seat) : State :=
  if (s.slmOf c).overrun then s
  else State.notify (.expired c x (s.slmOf c).clock (s.allowanceOf x) (s.classOf x).action)
    { s with slm := vset s.slm c { s.slmOf c with overrun := true }, mge := { s.mge with flags := flagsSet .speakExpired s.mge.flags } }

theorem State.expiredAt_far (s : State) (c : Fin 12) (x : Seat) : (s.expiredAt c x).far = s.far := by
  unfold State.expiredAt
  split
  · rfl
  · rw [State.notify_far]

theorem State.expireStep_early (opened : (s.chan c).state = .opened) (seat : (s.chan c).seat = some x)
    (early : s.allowanceOf x = 0 ∨ (s.slmOf c).clock < s.allowanceOf x * 10) : s.expireStep c = s := by
  simp only [State.expireStep, opened, seat]
  refine if_neg ?_
  simp only [State.expiryDue, Bool.and_eq_true, decide_eq_true_eq]
  omega

theorem State.expireStep_due (opened : (s.chan c).state = .opened) (seat : (s.chan c).seat = some x) (allowed : s.allowanceOf x ≠ 0)
    (due : s.allowanceOf x * 10 ≤ (s.slmOf c).clock) : s.expireStep c = (match (s.classOf x).action with
      | .notify => s.expiredAt c x
      | .close => (s.expiredAt c x).closeRequest c .time) := by
  have isDue : s.expiryDue c x = true := by simp [State.expiryDue, allowed, due]
  simp only [State.expireStep, opened, seat, isDue, if_true]
  rfl

/-- A warning past, the expiry test reads what it would have read before. -/
theorem State.warnedAt_reads (s : State) (c : Fin 12) (x : Seat) : (s.warnedAt c x).chan c = s.chan c
    ∧ (s.warnedAt c x).allowanceOf x = s.allowanceOf x ∧ (s.warnedAt c x).classOf x = s.classOf x := by
  obtain ⟨far, stb, -, -⟩ := s.warnedAt_spec c x
  refine ⟨by rw [State.chan, far]; rfl, ?_, ?_⟩
  · simp only [State.allowanceOf, State.classOf, State.seatRec, stb]
  · simp only [State.classOf, State.seatRec, stb]

/-- A comparison before the expiry warns at most (R139). -/
theorem State.comparison_early (opened : (s.chan c).state = .opened) (seat : (s.chan c).seat = some x)
    (early : s.allowanceOf x = 0 ∨ (s.slmOf c).clock < s.allowanceOf x * 10) : s.comparison c = s.warnedAt c x := by
  obtain ⟨chan, allowance, -⟩ := s.warnedAt_reads c x
  obtain ⟨-, -, clock, -⟩ := s.warnedAt_spec c x
  rw [State.comparison, State.warnStep_eq opened seat]
  exact State.expireStep_early (by rw [chan]; exact opened) (by rw [chan]; exact seat)
    (by rw [allowance, clock]; exact early)

/-- A comparison at the expiry (R139, R141). -/
theorem State.comparison_due (opened : (s.chan c).state = .opened) (seat : (s.chan c).seat = some x) (allowed : s.allowanceOf x ≠ 0)
    (due : s.allowanceOf x * 10 ≤ (s.slmOf c).clock) : s.comparison c = (match (s.classOf x).action with
      | .notify => (s.warnedAt c x).expiredAt c x
      | .close => ((s.warnedAt c x).expiredAt c x).closeRequest c .time) := by
  obtain ⟨chan, allowance, cls⟩ := s.warnedAt_reads c x
  obtain ⟨-, -, clock, -⟩ := s.warnedAt_spec c x
  rw [State.comparison, State.warnStep_eq opened seat, ← cls]
  exact State.expireStep_due (by rw [chan]; exact opened) (by rw [chan]; exact seat) (by rwa [allowance])
    (by rw [allowance, clock]; exact due)

/-- An OPEN channel without a seat, which no run reaches, is not compared. -/
theorem State.comparison_unseated (noSeat : (s.chan c).seat = none) : s.comparison c = s := by
  have noWarning : s.warnStep c = s := by
    unfold State.warnStep
    split
    · next seat => exact absurd (noSeat.symm.trans seat) (by simp)
    · rfl
  rw [State.comparison, noWarning, State.expireStep]
  split
  · next seat => exact absurd (noSeat.symm.trans seat) (by simp)
  · rfl

/-! ### Clocks where nothing is due (R137) -/

/-- SLM's record of a channel a decisecond later: the clock of an OPEN one has advanced (R137). -/
def State.advanced (s : State) (c : Fin 12) : SlmChan :=
  if (s.chan c).state = .opened then { s.slmOf c with clock := min 999999 ((s.slmOf c).clock + 1) } else s.slmOf c

/-- Neither the warning nor the expiry of channel `c` is due a decisecond later. -/
def State.calm (s : State) (c : Fin 12) : Prop :=
  ∀ x, (s.chan c).state = .opened → (s.chan c).seat = some x → s.allowanceOf x = 0
    ∨ (min 999999 ((s.slmOf c).clock + 1) < s.allowanceOf x * 10
      ∧ (s.mge.settings.warnLead = 0 ∨ (s.slmOf c).warned = true
        ∨ min 999999 ((s.slmOf c).clock + 1) < (s.allowanceOf x - s.mge.settings.warnLead) * 10))

/-- A decisecond at a calm channel only advances its clock (R136, R137). -/
theorem State.tickClock_calm (calm : s.calm c) : s.tickClock c = { s with slm := vset s.slm c (s.advanced c) } := by
  by_cases opened : (s.chan c).state = .opened
  · generalize ha : ({ s with slm := vset s.slm c (s.advanced c) } : State) = a
    have ticks : s.tickClock c = a.comparison c := by
      rw [← ha, State.advanced, if_pos opened]
      exact if_pos opened
    have chan : a.chan c = s.chan c := by rw [← ha]; rfl
    have slm : a.slmOf c = { s.slmOf c with clock := min 999999 ((s.slmOf c).clock + 1) } := by
      rw [← ha, State.slmOf, vget_vset_self, State.advanced, if_pos opened]
    rw [ticks]
    cases seat : (s.chan c).seat with
    | none => exact State.comparison_unseated (by rw [chan]; exact seat)
    | some x =>
      have allowance : a.allowanceOf x = s.allowanceOf x := by rw [← ha]; rfl
      have lead : a.mge.settings.warnLead = s.mge.settings.warnLead := by rw [← ha]
      have quiet := calm x opened seat
      rw [State.comparison_early (by rw [chan]; exact opened) (by rw [chan]; exact seat) (by rw [allowance, slm]; exact quiet.imp_right And.left)]
      refine if_neg fun ⟨allowed, leads, notWarned, due⟩ => ?_
      rw [allowance] at allowed due
      rw [lead] at leads due
      rw [slm] at notWarned due
      obtain ⟨-, noLead | warned | before⟩ := quiet.resolve_left allowed
      · exact leads noLead
      · exact absurd (warned.symm.trans notWarned) (by decide)
      · exact absurd due (not_le.mpr before)
  · rw [State.advanced, if_neg opened]
    have same : vset s.slm c (s.slmOf c) = s.slm := vset_vget _ _
    rw [same]
    exact if_neg opened

/-- Over calm channels, each met once, only the clocks change. -/
theorem State.tickClocks_calm (s : State) (l : List (Fin 12)) (once : l.Nodup) (calm : ∀ c ∈ l, s.calm c) :
    ∃ v, l.foldl State.tickClock s = { s with slm := v } ∧ ∀ c, vget v c = if c ∈ l then s.advanced c else s.slmOf c := by
  induction l using List.reverseRecOn with
  | nil => exact ⟨s.slm, rfl, fun _ => rfl⟩
  | append_singleton l c ih =>
    rw [List.nodup_append] at once
    have fresh : c ∉ l := fun mem => once.2.2 c mem c List.mem_cons_self rfl
    obtain ⟨v, ticked, entries⟩ := ih once.1 fun d mem => calm d (List.mem_append_left _ mem)
    have slm : ({ s with slm := v } : State).slmOf c = s.slmOf c := (entries c).trans (if_neg fresh)
    have calmNow : ({ s with slm := v } : State).calm c := by
      unfold State.calm
      rw [slm]
      exact calm c (by simp)
    have advanced : ({ s with slm := v } : State).advanced c = s.advanced c := by
      unfold State.advanced
      rw [slm]
      rfl
    refine ⟨vset v c (s.advanced c), ?_, fun d => ?_⟩
    · rw [List.foldl_append, ticked, List.foldl_cons, List.foldl_nil, State.tickClock_calm calmNow, advanced]
    · rw [vget_vset, entries]
      by_cases here : c = d
      · subst here
        simp
      · simp [here, Ne.symm here]

/-- With all channels calm a decisecond advances the clocks of the OPEN ones (R137). -/
theorem State.tickClocks_eq (calm : ∀ c, s.calm c) : allChans.foldl State.tickClock s = { s with slm := Vector.ofFn s.advanced } := by
  obtain ⟨v, ticked, entries⟩ := s.tickClocks_calm allChans (by decide) fun c _ => calm c
  have all : v = Vector.ofFn s.advanced := vget_ext fun c => by
    rw [entries, if_pos (show c ∈ allChans from List.mem_finRange c), vget_ofFn]
  rw [ticked, all]

/-! ### Deadlines (R84) -/

/-- Where no deadline is due, deadlines are lowered and nothing lapses (R84). -/
theorem State.deadlines_calm (later : ∀ e ∈ s.far.list, ∀ d, e.deadline = some d → 2 ≤ d) :
    s.deadlines = { s with far := { s.far with list := lowerDeadlines s.far.list } } := by
  have none : lapsedSeats (lowerDeadlines s.far.list) = [] := by
    simp only [lapsedSeats, lowerDeadlines, List.map_eq_nil_iff, List.filter_eq_nil_iff, List.mem_map, decide_eq_true_eq]
    rintro _ ⟨e, listed, rfl⟩ zero
    obtain ⟨d, deadline, isZero⟩ := Option.map_eq_some_iff.mp zero
    have := later e listed d deadline
    omega
  rw [State.deadlines, none]
  rfl

/-- An offer that lapses is counted, flagged and ended with cause TIME (R84). -/
theorem State.freed_of_lapse {e : Entry} {i : Nat} (entry : s.entryOf x = some e) (offered : e.state = .offered) (index : s.listIndex x = some i)
    (chan : s.chanOf x = some c) (state : (s.chan c).state = .offered) :
    State.freed { s with mge := { s.mge with lapsed := min 65535 (s.mge.lapsed + 1), flags := flagsSet .offerLapsed s.mge.flags } } c
      (s.far.list.eraseIdx i) (s.place x .withdraw).trunks [.listRemove x .lapsed i (s.far.list.length - 1), .chClose c x .time 0] (s.lapse x) := by
  generalize counted : ({ s with mge := { s.mge with
    lapsed := min 65535 (s.mge.lapsed + 1), flags := flagsSet .offerLapsed s.mge.flags } } : State) = l
  have far : l.far = s.far := by rw [← counted]
  have same : ∀ d, l.chan d = s.chan d := fun d => by rw [State.chan, far]; rfl
  have lapses : s.lapse x = l.endOffer x .lapsed .time true := by rw [← counted]; rfl
  have placed : (s.place x .withdraw).trunks = (l.place x .withdraw).trunks :=
    (State.place_trunks_congr .withdraw (by rw [← counted]) (by rw [← counted]; rfl)).symm
  rw [lapses, placed, ← far]
  exact State.freed_of_endOffer (by rwa [State.entryOf, far]) offered (by rwa [State.listIndex, far])
    (by simpa only [State.chanOf, same] using chan) (by rwa [same]) .lapsed .time true

/-- The tenth decisecond expiry brings the second expiry (R136). -/
theorem exec_decisecondExpiry (running : s.running = true)
    (before : ((allChans.foldl State.tickClock (s.modMge fun m => { m with decisecondPhase := 0 })).deadlines).settle = u) :
    exec .decisecondExpiry s
      = .next (if 10 ≤ u.mge.secondPhase + 1 then u.secondExpiry else u.modMge fun m => { m with secondPhase := m.secondPhase + 1 }) := by
  have run : exec .decisecondExpiry s = .next s.decisecondExpiry := congrArg Host.Outcome.next (if_pos running)
  rw [run]
  simp only [State.decisecondExpiry, before]

theorem exec_secondExpiry (running : s.running = true) : exec .secondExpiry s = .next s.secondExpiry :=
  congrArg Host.Outcome.next (if_pos running)

/-- Clocks, deadlines and promotions do not stop a running engine. -/
theorem State.decisecond_running (running : s.running = true) :
    (((allChans.foldl State.tickClock s).deadlines).settle).running = true := by
  have moves : Moves false s ((allChans.foldl State.tickClock s).deadlines).settle :=
    ((Moves.foldl _ State.tickClock_moves allChans s).trans (State.deadlines_moves _)).trans (State.settle_moves _)
  obtain ⟨-, -, -, -, hold, -⟩ := moves.frame
  rw [State.running, hold]
  exact running

end

end Sys2Proof.Machine

namespace Sys2Proof.Proofs

open Sys2Proof.Machine

/-- Settles O14. -/
theorem decisecondAdvancesOpenClocks : Obligations.DecisecondAdvancesOpenClocks := by
  unfold Obligations.DecisecondAdvancesOpenClocks
  refine ⟨fun s running owed calm later => ?_, fun s running => ?_, fun s c x opened seat => ?_,
    fun s x e i c entry offered index chan state => ?_⟩
  · intro slm far
    have before : ((allChans.foldl State.tickClock (s.modMge fun m => { m with decisecondPhase := 0 })).deadlines).settle
        = { s with slm := slm, far := far, mge := { s.mge with decisecondPhase := 0 } } := by
      rw [State.tickClocks_eq (s := s.modMge fun m => { m with decisecondPhase := 0 }) calm]
      exact (congrArg State.settle (State.deadlines_calm (s := { s with slm := slm, mge := { s.mge with decisecondPhase := 0 } }) later)).trans
        (State.settle_eq _ owed)
    have run := exec_decisecondExpiry running before
    refine ⟨fun below => ?_, fun tenth => ?_⟩
    · rw [run, if_neg (not_le.mpr below)]
      rfl
    · rw [run, if_pos tenth]
      exact (exec_secondExpiry (s := { s with slm := slm, far := far, mge := { s.mge with decisecondPhase := 0 } }) running).symm
  · intro compared lowered due u
    have ticks : allChans.foldl State.tickClock (s.modMge fun m => { m with decisecondPhase := 0 }) = compared :=
      congrArg (fun f => allChans.foldl f _) (funext₂ fun a c => rfl)
    have running' := State.decisecond_running (s := s.modMge fun m => { m with decisecondPhase := 0 }) running
    clear_value compared
    have run := exec_decisecondExpiry (u := u) running (by rw [ticks]; rfl)
    rw [ticks] at running'
    refine ⟨fun below => ?_, fun tenth => ?_⟩
    · rw [run, if_neg (not_le.mpr below)]
      rfl
    · rw [run, if_pos tenth]
      exact (exec_secondExpiry (s := u) running').symm
  · intro a lead clock warned expired
    have isExpired : (s.warnedAt c x).expiredAt c x = expired := by
      obtain ⟨-, allowance, cls⟩ := s.warnedAt_reads c x
      obtain ⟨-, -, sameClock, overrun⟩ := s.warnedAt_spec c x
      rw [State.expiredAt, overrun, sameClock, allowance, cls]
      rfl
    refine ⟨State.comparison_early opened seat, fun allowed passed action => ?_, fun allowed passed action => ?_⟩
    · rw [State.comparison_due opened seat allowed passed, action, isExpired]
    · have same : ((s.warnedAt c x).expiredAt c x).chan c = s.chan c := by
        rw [State.chan, State.expiredAt_far, (s.warnedAt_spec c x).1]
        rfl
      rw [State.comparison_due opened seat allowed passed, action, ← isExpired]
      exact State.closingOf_opened .time (by rw [same]; exact opened) (by rw [same]; exact seat)
  · exact State.freed_of_lapse entry offered index chan state

end Sys2Proof.Proofs
end

section
/-! PROOF. Requests and the list: the lapse of an offer (O17), the press that joins the list at its place (O29), and the presses and confirms that make
no request (O30). -/

namespace Sys2Proof.Machine

/-! ### The order of the list (R73, R75) -/

section
variable {l : List Entry}

/-- In an ordered list every entry from a delegate's on is a delegate's (R73). -/
theorem delegates_from_findIdx {p : Entry → Bool} (marks : ∀ a, p a = true → a.kind = .delegate) (noListener : ∀ a ∈ l, a.kind ≠ .listener)
    (ordered : chairsFirst l) : ∀ a ∈ l.drop (l.findIdx p), a.kind = .delegate := by
  induction l with
  | nil => simp
  | cons b l ih =>
    obtain ⟨behind, ordered'⟩ := List.pairwise_cons.mp ordered
    cases marked : p b with
    | false =>
      simp only [List.findIdx_cons, marked, cond_false, List.drop_succ_cons]
      exact ih (fun a listed => noListener a (List.mem_cons_of_mem _ listed)) ordered'
    | true =>
      simp only [List.findIdx_cons, marked, cond_true, List.drop_zero]
      intro a listed
      rcases List.mem_cons.mp listed with rfl | later
      · exact marks a marked
      · have notChair := behind a later (by rw [marks b marked]; decide)
        have notListener := noListener a listed
        cases kind : a.kind with
        | delegate => rfl
        | chair => exact absurd kind notChair
        | listener => exact absurd kind notListener

/-- Behind the place of an insertion stand delegates only, whatever the discipline (R75). -/
theorem delegates_from_insertionIndex (d : Discipline) (kind : ClassKind) (level : Fin 8) (group : Group) (noListener : ∀ a ∈ l, a.kind ≠ .listener)
    (ordered : chairsFirst l) : ∀ a ∈ l.drop (insertionIndex d kind level group l), a.kind = .delegate := by
  have found := fun p marks => delegates_from_findIdx (p := p) marks noListener ordered
  have last : ∀ a ∈ l.drop l.length, a.kind = .delegate := by simp
  have byDiscipline : ∀ a ∈ l.drop (insertionIndex d .delegate level group l), a.kind = .delegate := by
    cases d with
    | arrival => exact last
    | grouped =>
      cases group with
      | low => exact last
      | high => exact found _ fun a marked => (of_decide_eq_true marked).1
    | level => exact found _ fun a marked => (of_decide_eq_true marked).1
  cases kind with
  | chair => exact found _ fun a marked => of_decide_eq_true marked
  | delegate => exact byDiscipline
  | listener => exact byDiscipline

/-- Before the place of a chair's entry stand chairs only (R75). -/
theorem chairs_before_insertionIndex (d : Discipline) (level : Fin 8) (group : Group) (noListener : ∀ a ∈ l, a.kind ≠ .listener) :
    ∀ a ∈ l.take (insertionIndex d .chair level group l), a.kind = .chair := by
  intro a listed
  obtain ⟨n, inside, rfl⟩ := List.mem_take_iff_getElem.mp listed
  have before : n < insertionIndex d .chair level group l := inside.trans_le (min_le_left _ _)
  have notDelegate : (l[n]).kind ≠ .delegate := by simpa using List.not_of_lt_findIdx before
  have notListener := noListener _ (List.getElem_mem (inside.trans_le (min_le_right _ _)))
  cases kind : (l[n]).kind with
  | chair => rfl
  | delegate => exact absurd kind notDelegate
  | listener => exact absurd kind notListener

/-- An entry put between chairs and delegates leaves the chairs first (R73). -/
theorem chairsFirst_insert {e : Entry} {i : Nat} (ordered : chairsFirst l) (chairs : e.kind = .chair → ∀ a ∈ l.take i, a.kind = .chair)
    (delegates : ∀ a ∈ l.drop i, a.kind = .delegate) : chairsFirst (l.take i ++ e :: l.drop i) := by
  rw [← List.take_append_drop i l] at ordered
  obtain ⟨before, after, across⟩ := List.pairwise_append.mp ordered
  refine List.pairwise_append.mpr ⟨before, List.pairwise_cons.mpr ⟨fun b listed _ => ?_, after⟩, fun a first b later => ?_⟩
  · rw [delegates b listed]
    decide
  · rcases List.mem_cons.mp later with rfl | listed
    · exact fun notChair chair => notChair (chairs chair a first)
    · exact across a first b listed

theorem insertionIndex_le (d : Discipline) (kind : ClassKind) (level : Fin 8) (group : Group) : insertionIndex d kind level group l ≤ l.length := by
  unfold insertionIndex
  split
  · exact List.findIdx_le_length
  all_goals split <;> simp [List.findIdx_le_length]

end

/-! ### What an intake leaves of MGE (R3, R173) -/

@[simp] theorem State.notify_refused (s : State) (n : Notice) : (s.notify n).mge.refused = s.mge.refused := by
  unfold State.notify
  split <;> [split; skip] <;> rfl

/-- The notice an intake may queue does not touch the count of refused requests. -/
@[simp] theorem State.afterIntake_refused (s : State) (x : Seat) (serial : Fin 16) : (s.afterIntake x serial).mge.refused = s.mge.refused := by
  rw [State.afterIntake_eq]
  split
  · rfl
  · exact State.notify_refused ..

section
variable {s : State} {x : Seat} {arg : Byte} {i : Nat}

/-! ### Requests that join the list or are refused (R74, R76, R101, R102) -/

/-- In DIRECT mode under policy QUEUE the request of a delegate that is not eligible is an insertion, a census running or not (R102). -/
theorem State.directRequest_queues (policy : s.mge.settings.policy = .queue) (notEligible : s.eligible x = false) :
    s.directRequest x = s.insertRequest x .seat := by
  simp only [State.directRequest, notEligible, policy, Bool.false_eq_true, if_false, ite_self]

/-- A delegate's request in LIST or AUTO mode, and in DIRECT mode where it is queued, is an insertion (R101, R102). -/
theorem State.newRequest_inserts (enabled : (s.seatRec x).enabled = true) (delegate : s.kindOf x = .delegate)
    (asks : s.mge.settings.mode ≠ .direct ∨ (s.mge.settings.policy = .queue ∧ s.eligible x = false)) :
    s.newRequest x = s.insertRequest x .seat := by
  simp only [State.newRequest, enabled, delegate, Bool.not_true, Bool.false_eq_true, if_false]
  cases mode : s.mge.settings.mode with
  | list => rfl
  | auto => rfl
  | direct =>
    obtain ⟨policy, notEligible⟩ := asks.resolve_left (not_not_intro mode)
    exact State.directRequest_queues policy notEligible

/-- In DIRECT mode under policy DENY a delegate that is not eligible is refused, and counted (R102). -/
theorem State.newRequest_denied (enabled : (s.seatRec x).enabled = true) (delegate : s.kindOf x = .delegate) (mode : s.mge.settings.mode = .direct)
    (census : s.censusOn x = false) (notEligible : s.eligible x = false) (policy : s.mge.settings.policy = .deny) :
    s.newRequest x = { s.place x .refused with mge := { s.mge with refused := min 65535 (s.mge.refused + 1) } } := by
  simp only [State.newRequest, enabled, delegate, mode, State.directRequest, census, notEligible, policy, Bool.not_true, Bool.false_eq_true,
    if_false, State.denyRequest, State.modMge, State.place_mge]
  rfl

/-- A disabled seat's request, and a listener's, is refused (R101). -/
theorem State.newRequest_refused (h : (s.seatRec x).enabled = false ∨ s.kindOf x = .listener) : s.newRequest x = s.place x .refused := by
  unfold State.newRequest
  split
  · rfl
  · next enabled => simp only [h.resolve_left (by simpa using enabled)]

/-- A request with room on the list goes to the place its discipline gives (R74, R75). -/
theorem State.insertRequest_room (room : s.far.list.length < 64) (origin : Origin) : s.insertRequest x origin = s.insertAt x origin
    (insertionIndex s.mge.settings.discipline (s.kindOf x) (s.levelOf x) (s.classOf x).group s.far.list) :=
  if_neg (not_le.mpr room)

/-! ### Presses and confirms by floor state (R79, R80) -/

theorem State.micPressed_mark (idle : s.floorState x = .idle) (mark : arg.getLsbD 0 = true) : s.micPressed arg x = s.place x .refused := by
  simp only [State.micPressed, idle, mark, if_true]

/-- The press of a WAITING seat does nothing where second press cancels is off (R80). -/
theorem State.micPressed_waits (waiting : s.floorState x = .waiting) (keeps : s.mge.settings.secondPressCancels = false) :
    s.micPressed arg x = s := by
  simp only [State.micPressed, waiting, keeps, Bool.false_eq_true, if_false]

/-- It withdraws the entry where second press cancels is on (R78, R80). -/
theorem State.micPressed_withdraws (waiting : s.floorState x = .waiting) (cancels : s.mge.settings.secondPressCancels = true)
    (index : s.listIndex x = some i) : s.micPressed arg x = State.notify (.listRemove x .withdrawn i (s.far.list.length - 1))
      { s with far := { s.far with list := s.far.list.eraseIdx i } } := by
  simp only [State.micPressed, waiting, cancels, if_true]
  exact State.listRemove_waiting waiting index (by decide)

theorem State.confirmed_idle (idle : s.floorState x = .idle) : s.confirmed x = s.place x .refused := by
  simp only [State.confirmed, idle]

/-- A CONFIRM is ignored but of a seat IDLE or OFFERED (R79). -/
theorem State.confirmed_ignored (notIdle : s.floorState x ≠ .idle) (notOffered : s.floorState x ≠ .offered) : s.confirmed x = s := by
  unfold State.confirmed
  split
  · next idle => exact absurd idle notIdle
  · next offered => exact absurd offered notOffered
  all_goals rfl

/-! ### OFFER_LAPSE (R84) -/

theorem State.lapseDue_iff {e : Entry} {d : Nat} (entry : s.entryOf x = some e) (deadline : e.deadline = some d) :
    s.lapseDue x = true ↔ e.state = .offered ∧ d ≤ 1 := by
  cases state : e.state <;> simp [State.lapseDue, entry, state, deadline]

theorem exec_offerLapse_due (running : s.running = true) (due : s.lapseDue x = true) : exec (.offerLapse x) s = .next (s.lapse x).settle :=
  congrArg Host.Outcome.next (if_pos ⟨running, due⟩)

theorem exec_offerLapse_early (early : s.lapseDue x ≠ true) : exec (.offerLapse x) s = .next s :=
  congrArg Host.Outcome.next (if_neg fun due => early due.2)

end

end Sys2Proof.Machine

namespace Sys2Proof.Proofs

open Sys2Proof.Machine

/-- Settles O17: the lapse is the one a decisecond expiry makes, and without a deadline at its last decisecond there is none. -/
theorem offerLapseFreesChannel : Obligations.OfferLapseFreesChannel := by
  unfold Obligations.OfferLapseFreesChannel
  refine ⟨fun s x e d i c running entry offered deadline last index chan state => ?_, fun s x e d running entry deadline later => ?_⟩
  · obtain ⟨j, index', erased⟩ := State.entryOf_index entry
    obtain rfl : i = j := Option.some.inj (index.symm.trans index')
    obtain ⟨cleared, others, far, trunks, stb, slm, fmx, told⟩ := State.freed_of_lapse entry offered index chan state
    rw [erased] at far
    exact ⟨s.lapse x, exec_offerLapse_due running ((State.lapseDue_iff entry deadline).mpr ⟨offered, last⟩), cleared, others, far, stb, slm, fmx,
      trunks, told⟩
  · refine exec_offerLapse_early fun due => ?_
    obtain ⟨-, last⟩ := (State.lapseDue_iff entry deadline).mp due
    omega

/-- Settles O29: the press is an insertion, and behind the place of an insertion stand delegates only. -/
theorem pressJoinsTheList : Obligations.PressJoinsTheList := by
  unfold Obligations.PressJoinsTheList
  refine ⟨fun t position serial arg s x taken idle mark enabled delegate => ?_, fun d level group l e noListener notListener ordered => ?_⟩
  · intro a asks i e
    have delegate' : a.kindOf x = .delegate := (s.afterIntake_kindOf x serial).trans delegate
    have inserts : a.micPressed arg x = a.insertRequest x .seat := by
      rw [State.micPressed_idle ((s.afterIntake_floorState x serial).trans idle) mark]
      exact State.newRequest_inserts (by rwa [State.afterIntake_seatRec]) delegate' (by rwa [State.afterIntake_settings])
    have press : ∀ {u : State}, a.insertRequest x .seat = u → exec (.micPress t position serial arg) s = .next u.settle := fun inserted =>
      (exec_micPress taken arg).trans (settled_congr (inserts.trans inserted))
    have place : insertionIndex s.mge.settings.discipline .delegate (s.levelOf x) (s.classOf x).group s.far.list = i := by
      cases discipline : s.mge.settings.discipline with
      | arrival => simp only [i, insertionIndex, discipline]
      | grouped => cases group : (s.classOf x).group <;> simp only [i, insertionIndex, discipline, group]
      | level => simp only [i, insertionIndex, discipline]
    refine ⟨fun room => press ?_, fun full => press ?_⟩
    · rw [State.insertRequest_room (by rwa [State.afterIntake_far]), State.insertAt_eq a x .seat (insertionIndex_le ..), delegate']
      simp only [a, State.afterIntake_far, State.afterIntake_settings, State.afterIntake_levelOf, State.afterIntake_classOf, place, e]
    · rw [State.insertRequest_full (by rwa [State.afterIntake_far]), State.afterIntake_refused]
  · intro i
    have delegates : ∀ a ∈ l.drop i, a.kind = .delegate := delegates_from_insertionIndex d e.kind level group noListener ordered
    have chairs : e.kind = .chair → ∀ a ∈ l.take i, a.kind = .chair := fun chair => by
      simp only [i, chair]
      exact chairs_before_insertionIndex d level group noListener
    exact ⟨chairsFirst_insert ordered chairs delegates, fun chair => ⟨chairs chair, delegates⟩, fun _ => delegates⟩

/-- Settles O30, by the floor state of the seat. -/
theorem pressesRefusedOrWithdrawn : Obligations.PressesRefusedOrWithdrawn := by
  unfold Obligations.PressesRefusedOrWithdrawn
  intro t position serial arg s x taken a press confirm
  obtain rfl : x.trunk = t := by
    obtain ⟨-, -, position, -⟩ := taken
    exact trunk_of_seatOfPosition position
  have floor : a.floorState x = s.floorState x := s.afterIntake_floorState x serial
  have settings : a.mge.settings = s.mge.settings := s.afterIntake_settings x serial
  have sameEnabled : (a.seatRec x).enabled = (s.seatRec x).enabled := by rw [State.afterIntake_seatRec]
  have kind : a.kindOf x = s.kindOf x := s.afterIntake_kindOf x serial
  have presses : ∀ {u : State}, a.micPressed arg x = u → press = .next u.settle := fun same => (exec_micPress taken arg).trans (settled_congr same)
  have confirms : ∀ {u : State}, a.confirmed x = u → confirm = .next u.settle := fun same => (exec_confirm taken arg).trans (settled_congr same)
  refine ⟨fun idle refused => presses ?_, fun idle mark enabled delegate mode census notEligible deny => presses ?_,
    fun idle => confirms (State.confirmed_idle (floor.trans idle)), fun waiting keeps => presses ?_, fun i waiting cancels index => presses ?_,
    fun closing => presses (State.micPressed_closing (floor.trans closing)),
    fun notIdle notOffered => confirms (State.confirmed_ignored (by rwa [floor]) (by rwa [floor]))⟩
  · cases mark : arg.getLsbD 0 with
    | true => exact State.micPressed_mark (floor.trans idle) mark
    | false =>
      rw [State.micPressed_idle (floor.trans idle) mark]
      exact State.newRequest_refused (by rw [sameEnabled, kind]; exact refused.resolve_left (ne_true_of_eq_false mark))
  · rw [State.micPressed_idle (floor.trans idle) mark, State.newRequest_denied (sameEnabled.trans enabled) (kind.trans delegate)
      (by rwa [settings]) (by rwa [State.censusOn, State.afterIntake_tpc]) notEligible (by rwa [settings]), State.afterIntake_refused]
  · exact State.micPressed_waits (floor.trans waiting) (by rwa [settings])
  · rw [State.micPressed_withdraws (floor.trans waiting) (by rwa [settings]) ((s.afterIntake_listIndex x x serial).trans index),
      State.afterIntake_far]

end Sys2Proof.Proofs
end

section
/-! PROOF. CHAIR_NEXT and CHAIR_CLEAR (O36). What a clearing of the list does to the floor is said once as a relation between states (`State.releases`)
that every entry cleared keeps; the channel of an offer is freed at the turn of its entry. -/

namespace Sys2Proof.Machine

/-! ### Channels released while the list is cleared (R84, R94) -/

/-- `u` has the floor of `s` but for channels freed, the open sequence, the list and the promotion owed. -/
structure State.releases (s u : State) : Prop where
  chans : ∀ d, u.chan d = s.chan d ∨ u.chan d = Channel.reset
  far : u.far = { s.far with
    channels := u.far.channels, openSeq := u.far.openSeq, list := u.far.list, promotionDeferred := u.far.promotionDeferred }
  fmx : u.fmx = s.fmx

section
variable {s u v : State} {x y : Seat} {c d : Fin 12}

theorem State.releases_refl (s : State) : s.releases s := ⟨fun _ => .inl rfl, rfl, rfl⟩

theorem State.releases_trans (first : s.releases u) (second : u.releases v) : s.releases v where
  chans d := (second.chans d).elim (fun same => by rw [same]; exact first.chans d) .inr
  far := by rw [second.far, first.far]
  fmx := second.fmx.trans first.fmx

theorem State.releases_reset (rel : s.releases u) (cleared : s.chan c = Channel.reset) : u.chan c = Channel.reset :=
  (rel.chans c).elim (fun same => same.trans cleared) id

/-- A seat keeps its channel while other channels are released. -/
theorem State.releases_chanOf (rel : s.releases u) (chan : s.chanOf x = some c) (same : u.chan c = s.chan c) : u.chanOf x = some c := by
  obtain ⟨found, before, after, all, first⟩ := List.find?_eq_some_iff_append.mp chan
  refine List.find?_eq_some_iff_append.mpr ⟨by rwa [same], before, after, all, fun d mem => ?_⟩
  rcases rel.chans d with same' | cleared
  · rw [same']
    exact first d mem
  · simp [cleared, Channel.reset]

/-- The end of an offer frees the channel of its seat (R84). -/
theorem State.endOffer_releases (s : State) (x : Seat) (removal : RemovalCause) (cause : CloseCause) (withdraw : Bool) :
    s.releases (s.endOffer x removal cause withdraw) := by
  obtain ⟨chans, far⟩ := s.endOffer_floor x removal cause withdraw
  exact ⟨fun d => (chans d).imp_right And.right, by rw [far], s.endOffer_fmx x removal cause withdraw⟩

theorem State.endOffer_chan (chan : s.chanOf x = some c) (removal : RemovalCause) (cause : CloseCause) (withdraw : Bool) :
    (s.endOffer x removal cause withdraw).chan c = Channel.reset := by
  unfold State.endOffer
  dsimp only
  generalize hv : (if withdraw then (s.listRemove x removal).place x .withdraw else s.listRemove x removal) = v
  have chans : ∀ d, v.chan d = s.chan d := fun d => by
    rw [← hv]
    split
    · rw [State.place_chan, State.listRemove_chan]
    · exact State.listRemove_chan ..
  have chan' : v.chanOf x = some c := by simpa only [State.chanOf, chans] using chan
  rw [chan']
  exact (v.freeChannel_spec c cause (State.chanOf_busy chan')).1

theorem State.clearEntry_releases (s : State) (x : Seat) : s.releases (s.clearEntry x) := by
  unfold State.clearEntry
  split
  · split
    · exact ⟨fun d => .inl (State.listRemove_chan ..), by rw [State.listRemove_far], State.listRemove_fmx ..⟩
    · exact s.endOffer_releases x .cleared .controller true
  · exact s.releases_refl

theorem State.clearEntries_releases (seats : List Seat) (s : State) : s.releases (seats.foldl State.clearEntry s) := by
  induction seats generalizing s with
  | nil => exact s.releases_refl
  | cons x seats ih => exact State.releases_trans (s.clearEntry_releases x) (ih _)

/-- A clearing frees the channel of every seat whose entry is OFFERED, at the turn of that entry (R84, R94). -/
theorem State.clearEntries_frees {e : Entry} (offered : e.state = .offered) (l : List Entry) (s : State) (list : s.far.list = l)
    (entry : s.entryOf y = some e) (chan : s.chanOf y = some c) : ((l.map Entry.seat).foldl State.clearEntry s).chan c = Channel.reset := by
  induction l generalizing s with
  | nil => simp [State.entryOf, list] at entry
  | cons b l ih =>
    have rest := State.clearEntries_releases (l.map Entry.seat) (s.clearEntry b.seat)
    rw [List.map_cons, List.foldl_cons]
    by_cases turn : b.seat = y
    · have ends : s.clearEntry b.seat = s.endOffer y .cleared .controller true := by
        simp only [turn, State.clearEntry, entry, offered]
      exact State.releases_reset rest (by rw [ends]; exact State.endOffer_chan chan ..)
    · have step := s.clearEntry_releases b.seat
      rcases step.chans c with same | cleared
      · obtain ⟨left, -⟩ := s.clearEntry_floor b.seat
        rw [list, List.eraseP_cons_of_pos (by simp)] at left
        refine ih _ left ?_ (State.releases_chanOf step chan same)
        simpa only [State.entryOf, left, list, List.find?_cons, turn, decide_false] using entry
      · exact State.releases_reset rest cleared

end

/-! ### The two chair events (R124, R131) -/

section
variable {t : Fin 4} {position : Fin 128} {serial : Fin 16} {s : State} {x : Seat}

/-- An event that acts only for chairs does, for a chair, what its kind has it do (R29). -/
theorem exec_chairEvent {kind : EventKind} {act : State → State} {arg : Byte} (taken : s.takesEvent t position serial x) (chair : s.kindOf x = .chair)
    (acts : ∀ (u : State) (wasPresent : Bool), u.dispatch (some kind) arg wasPresent x = u.chairEvent x act) :
    exec (seatEventOf kind t position serial arg) s = .next (act (s.afterIntake x serial)).settle := by
  rw [exec_seatEventOf, State.seatEvent_eq taken, acts]
  exact settled_congr (if_pos (by rwa [State.afterIntake_kindOf]))

theorem exec_chairNext (taken : s.takesEvent t position serial x) (chair : s.kindOf x = .chair) (arg : Byte) :
    exec (.chairNext t position serial arg) s = .next ((s.afterIntake x serial).chairNexted x).settle :=
  exec_chairEvent (kind := .chairNext) taken chair fun _ _ => rfl

theorem exec_chairClear (taken : s.takesEvent t position serial x) (chair : s.kindOf x = .chair) (arg : Byte) :
    exec (.chairClear t position serial arg) s = .next ((s.afterIntake x serial).chairCleared x).settle :=
  exec_chairEvent (kind := .chairClear) taken chair fun _ _ => rfl

theorem State.mayControl_iff : s.mayControl x = true ↔ s.far.holder = some x ∧ (s.seatRec x).enabled = true := by
  simp only [State.mayControl, Bool.and_eq_true, decide_eq_true_eq]

theorem State.chairNexted_controls (controls : s.mayControl x = true) : s.chairNexted x = s.promoteNext := if_pos controls

theorem State.chairCleared_controls (controls : s.mayControl x = true) : s.chairCleared x = s.clearWholeList := if_pos controls

theorem State.chairNexted_other (other : s.mayControl x ≠ true) : s.chairNexted x = s.place x (.listState false) := if_neg other

theorem State.chairCleared_other (other : s.mayControl x ≠ true) : s.chairCleared x = s.place x (.listState false) := if_neg other

/-- With no entry to promote CHAIR_NEXT does nothing (R111). -/
theorem State.promoteNext_none (none : ∀ e ∈ s.far.list, s.promotable e.seat = false) : s.promoteNext = s := by
  simp only [State.promoteNext, State.nextPromotable_none none]

theorem State.promoteNext_first {before rest : List Entry} {e : Entry} (list : s.far.list = before ++ e :: rest)
    (none : ∀ b ∈ before, s.promotable b.seat = false) (promotable : s.promotable e.seat = true) : s.promoteNext = s.promote e.seat := by
  simp only [State.promoteNext, State.nextPromotable_first list none promotable]

end

end Sys2Proof.Machine

namespace Sys2Proof.Proofs

open Sys2Proof.Machine

/-- Settles O36: CHAIR_NEXT takes the entry NEXT would take, and CHAIR_CLEAR is a clearing of the list, which releases channels only. -/
theorem chairRecordsNeedTheHolder : Obligations.ChairRecordsNeedTheHolder := by
  unfold Obligations.ChairRecordsNeedTheHolder
  intro t position serial arg s x taken chair a next clear
  have far : a.far = s.far := s.afterIntake_far x serial
  have controls : a.mayControl x = true ↔ s.far.holder = some x ∧ (s.seatRec x).enabled = true := by
    rw [State.mayControl_iff, far, State.afterIntake_seatRec]
  have nexts : ∀ {u : State}, a.chairNexted x = u → next = .next u.settle := fun same =>
    (exec_chairNext taken chair arg).trans (settled_congr same)
  have clears : ∀ {u : State}, a.chairCleared x = u → clear = .next u.settle := fun same =>
    (exec_chairClear taken chair arg).trans (settled_congr same)
  refine ⟨fun lacks => ?_, fun holder enabled => ?_⟩
  · have other : a.mayControl x ≠ true := fun both => by
      obtain ⟨holder, enabled⟩ := controls.mp both
      rcases lacks with notHolder | disabled
      · exact notHolder holder
      · exact absurd (enabled.symm.trans disabled) (by decide)
    exact ⟨nexts (State.chairNexted_other other), clears (State.chairCleared_other other)⟩
  · have both := controls.mpr ⟨holder, enabled⟩
    have promotes := State.chairNexted_controls both
    have empties := clears (State.chairCleared_controls both)
    refine ⟨fun none => nexts (promotes.trans (State.promoteNext_none (by rwa [far]))), fun before e rest list none promotable =>
      nexts (promotes.trans (State.promoteNext_first (by rwa [far]) none promotable)), fun empty => ?_, a.clearWholeList, empties, ?_⟩
    · rw [empties, State.clearWholeList, far, empty]
      rfl
    · obtain ⟨empty, -⟩ := State.clearEntries_floor a.far.list a rfl
      obtain ⟨chans, floor, fmx⟩ : a.releases a.clearWholeList := State.clearEntries_releases _ a
      refine ⟨empty, fun c => ?_, fun c y e entry offered chan _ => ?_, by rw [floor, far, holder], by rw [floor, far], by rw [floor, far],
        by rw [floor, far], by rw [floor, far], fmx.trans (s.afterIntake_fmx x serial), fun waiting => ?_⟩
      · simpa only [a, State.afterIntake_chan] using chans c
      · exact State.clearEntries_frees offered a.far.list a rfl ((s.afterIntake_entryOf x y serial).trans entry)
          ((s.afterIntake_chanOf x y serial).trans chan)
      · obtain ⟨left, stb, slm, -⟩ := State.clearEntries_waiting a.far.list a rfl (by rwa [far])
        exact ⟨left.trans (by rw [far]), stb, slm.trans (s.afterIntake_slm x serial)⟩

end Sys2Proof.Proofs
end

section
/-! PROOF. A press that takes another's channel (O32), and the records BATCH, CLEAR_STATUS and UNKNOWN_RECORD (O52). -/

namespace Sys2Proof.Machine

/-! ### Replacement (R104, R105) -/

section
variable {s : State} {x y : Seat} {c : Fin 12}

/-- What a candidate is: a delegate's channel, OPEN or HELD, of a seat whose class is replaceable (R104). -/
theorem State.candidate_spec (candidate : s.candidate x = some c) (seat : (s.chan c).seat = some y) :
    ((s.chan c).state = .opened ∨ (s.chan c).state = .held) ∧ (s.chan c).kind = some .delegate ∧ (s.classOf y).replaceable = true := by
  have passes : s.isCandidate x c = true := List.find?_some candidate
  simp only [State.isCandidate, seat, Bool.and_eq_true, Bool.or_eq_true, decide_eq_true_eq] at passes
  obtain ⟨⟨⟨⟨speaks, delegate⟩, replaceable⟩, -⟩, -⟩ := passes
  exact ⟨speaks, delegate, replaceable⟩

/-- The close request of a replacement meets an OPEN or HELD channel (R60, R105). -/
theorem State.closeRequest_candidate (candidate : s.candidate x = some c) (seat : (s.chan c).seat = some y) :
    s.closingOf c y .replaced (s.closeRequest c .replaced) := by
  rcases State.candidate_state candidate with opened | held
  · exact State.closingOf_opened .replaced opened seat
  · exact State.closingOf_held .replaced held seat

/-- A replacement closes the channel with cause REPLACED and names the requester there; the clock goes to the seat leaving (R105, R143). -/
theorem State.replaceChan_spec (candidate : s.candidate x = some c) (seat : (s.chan c).seat = some y) :
    (s.replaceChan c x).chan c = { s.chan c with state := .closing, closeCause := some .replaced, successor := some x }
      ∧ (∀ d, d ≠ c → (s.replaceChan c x).chan d = s.chan d)
      ∧ (s.replaceChan c x).far = { s.far with channels := (s.replaceChan c x).far.channels } ∧ (s.replaceChan c x).fmx = s.fmx
      ∧ (s.replaceChan c x).trunks = (s.place y .close).trunks ∧ (s.replaceChan c x).stb = (s.withClock c y).stb
      ∧ s.onlyNotices [] (s.replaceChan c x) := by
  have notOpening : (s.chan c).state ≠ .opening := by
    rcases State.candidate_state candidate with opened | held
    · rw [opened]; decide
    · rw [held]; decide
  obtain ⟨closing, others, far, trunks, fmx, -, stb, told⟩ := State.closeRequest_candidate candidate seat
  rw [if_neg notOpening] at stb
  refine ⟨?_, fun d other => ?_, ?_, fmx, trunks, stb, State.onlyNotices_trans told (State.onlyNotices_of rfl rfl rfl rfl rfl rfl rfl rfl rfl)⟩
  · rw [State.replaceChan, State.modChan_chan_self, closing]
  · rw [State.replaceChan, State.modChan_chan_other _ c d _ other.symm, others d other]
  · exact congrArg (fun f : Far => { f with channels := (s.replaceChan c x).far.channels }) far

/-- In DIRECT mode under policy REPLACE, outside a batch and a census, a delegate that is not eligible takes the oldest candidate (R102, R104). -/
theorem State.newRequest_replaces (enabled : (s.seatRec x).enabled = true) (delegate : s.kindOf x = .delegate)
    (mode : s.mge.settings.mode = .direct) (policy : s.mge.settings.policy = .replace) (batch : s.mge.batch = none)
    (census : s.censusOn x = false) (notEligible : s.eligible x = false) (candidate : s.candidate x = some c) :
    s.newRequest x = s.replaceChan c x := by
  simp only [State.newRequest, enabled, delegate, mode, State.directRequest, census, notEligible, policy, batch, State.replaceOr, candidate,
    Bool.not_true, Bool.false_eq_true, Option.isSome_none, if_false]

/-- Intake changes no seat's class. -/
theorem State.afterIntake_classOf_all (s : State) (x y : Seat) (serial : Fin 16) : (s.afterIntake x serial).classOf y = s.classOf y := by
  by_cases same : x = y
  · rw [← same, State.afterIntake_classOf]
  · have apart : seatIndex x ≠ seatIndex y := fun e => same (seatIndex_inj e)
    simp only [State.classOf, State.seatRec, State.afterIntake_stb, vget_vset_other _ _ _ _ apart]

end

/-! ### BATCH and the batch scope (R172) -/

section
variable {s : State} {n : Byte}

theorem batchBody_nested (nested : s.mge.batch ≠ none) : batchBody n s = Answer.refuse .nested s :=
  if_pos (Option.isSome_iff_ne_none.mpr nested)

theorem batchBody_zero (closed : s.mge.batch = none) : batchBody 0 s = Answer.refuse .badField s := by
  simp only [batchBody, closed, Option.isSome_none, Bool.false_eq_true, if_false, if_true]

theorem batchBody_opens (closed : s.mge.batch = none) (counts : n ≠ 0) : batchBody n s
    = ⟨{ s with mge := { s.mge with batch := some (min 7 n.toNat) } }, if 7 < n.toNat then .clamped else .ok, []⟩ := by
  simp only [batchBody, closed, counts, Option.isSome_none, Bool.false_eq_true, if_false, clampStatus, decide_eq_true_eq]
  rfl

/-- The last record of its packet ends the batch it stands in. -/
theorem State.countBatch_last {k : Nat} (left : s.mge.batch = some k) (counted : Bool) : s.countBatch counted true = s.endBatch := by
  simp only [State.countBatch, left, Bool.or_true, if_true]

/-- A counted record that brings the count to 0 ends the batch. -/
theorem State.countBatch_done {k : Nat} (left : s.mge.batch = some k) (done : k ≤ 1) : s.countBatch true false = s.endBatch := by
  simp only [State.countBatch, left, Nat.sub_eq_zero_of_le done, if_true, beq_self_eq_true, Bool.and_self, Bool.true_or]

/-- Any other counted record lowers the count. -/
theorem State.countBatch_lowers {k : Nat} (left : s.mge.batch = some k) (more : 2 ≤ k) : s.countBatch true false
    = { s with mge := { s.mge with batch := some (k - 1) } } := by
  have remains : (k - 1 == 0) = false := beq_eq_false_iff_ne.mpr (by omega)
  simp only [State.countBatch, left, remains, if_true, Bool.and_false, Bool.or_self, Bool.false_eq_true, if_false]
  rfl

end

/-! ### CLEAR_STATUS (R187) -/

/-- The 14 flags are the low bits of the mask. -/
theorem flagsClear_eq (mask : BitVec 16) (w : BitVec 14) : flagsClear mask w = w &&& ~~~(mask.setWidth 14) := by
  rw [flagsClear, BitVec.setWidth_eq_extractLsb' (by decide)]

section
variable (s : State) (named : Bool)

/-- NOTICE_LOST named clears the count of notices lost. -/
theorem State.noticesLost_ifNamed : (if named then s.modMge fun m => { m with noticesLost := 0 } else s)
    = { s with mge := { s.mge with noticesLost := if named then 0 else s.mge.noticesLost } } := by
  cases named <;> rfl

/-- LINK_LOST named clears the lost links of every trunk. -/
theorem State.lostLinks_ifNamed : (if named then { s with trunks := s.trunks.map fun p => { p with lostLinks := 0 } } else s)
    = { s with trunks := s.trunks.map fun p => { p with lostLinks := if named then 0 else p.lostLinks } } := by
  cases named with
  | true => rfl
  | false => simp

/-- SEAT_LOST named clears the command failures of every trunk. -/
theorem State.cmdFailures_ifNamed : (if named then { s with trunks := s.trunks.map fun p => { p with cmdFailures := 0 } } else s)
    = { s with trunks := s.trunks.map fun p => { p with cmdFailures := if named then 0 else p.cmdFailures } } := by
  cases named with
  | true => rfl
  | false => simp

end

/-- The three flags with counters, each clearing its own and no other. -/
theorem State.clearCounters_eq (s : State) (mask : BitVec 16) : s.clearCounters mask = { s with
    mge := { s.mge with noticesLost := if mask[7] then 0 else s.mge.noticesLost }
    trunks := s.trunks.map fun p => { p with
      lostLinks := if mask[3] then 0 else p.lostLinks
      cmdFailures := if mask[2] then 0 else p.cmdFailures } } := by
  have notice : maskNames mask .noticeLost = mask[7] := rfl
  have link : maskNames mask .linkLost = mask[3] := rfl
  have seat : maskNames mask .seatLost = mask[2] := rfl
  unfold State.clearCounters
  rw [notice, link, seat]
  extract_lets s1 s2
  have first : s1 = _ := s.noticesLost_ifNamed mask[7]
  have second : s2 = _ := s1.lostLinks_ifNamed mask[3]
  refine (s2.cmdFailures_ifNamed mask[2]).trans ?_
  simp only [second, first, Vector.map_map, Function.comp_def]
  rfl

theorem clearStatusBody_eq (s : State) (mask : BitVec 16) : clearStatusBody mask s
    = ⟨{ s with
        mge := { s.mge with
          flags := s.mge.flags &&& ~~~(mask.setWidth 14), noticesLost := if mask[7] then 0 else s.mge.noticesLost }
        trunks := s.trunks.map fun p => { p with
          lostLinks := if mask[3] then 0 else p.lostLinks
          cmdFailures := if mask[2] then 0 else p.cmdFailures } },
      .ok, u16 (s.mge.flags &&& ~~~(mask.setWidth 14)).toNat⟩ := by
  simp only [clearStatusBody, State.clearCounters_eq, flagsClear_eq, State.modMge]

/-! ### UNKNOWN_RECORD (R170) -/

theorem exec_unknownRecord_unlisted {s : State} {kind : Byte} (unlisted : recordLength kind = none) :
    exec (.unknownRecord kind) s = .next (s.runRecord (.unknownRecord kind) kind unknownBody) :=
  congrArg Host.Outcome.next (if_pos (by rw [unlisted]; rfl))

theorem exec_unknownRecord_listed {s : State} {kind : Byte} (listed : recordLength kind ≠ none) : exec (.unknownRecord kind) s = .next s :=
  congrArg Host.Outcome.next (if_neg fun unlisted => listed (Option.isNone_iff_eq_none.mp unlisted))

end Sys2Proof.Machine

namespace Sys2Proof.Proofs

open Sys2Proof.Machine

/-- Settles O32: past its intake the press is a replacement, and intake leaves the channels, the clocks and the classes alone. -/
theorem pressReplacesOldestCandidate : Obligations.PressReplacesOldestCandidate := by
  unfold Obligations.PressReplacesOldestCandidate
  intro t position serial arg s x y c taken idle mark enabled delegate mode policy batch census seat a notEligible candidate
  obtain rfl : x.trunk = t := by
    obtain ⟨-, -, position, -⟩ := taken
    exact trunk_of_seatOfPosition position
  have settings : a.mge.settings = s.mge.settings := s.afterIntake_settings x serial
  have replaces : a.micPressed arg x = a.replaceChan c x := by
    rw [State.micPressed_idle ((s.afterIntake_floorState x serial).trans idle) mark]
    exact State.newRequest_replaces (by rwa [State.afterIntake_seatRec]) ((s.afterIntake_kindOf x serial).trans delegate) (by rwa [settings])
      (by rwa [settings]) ((s.afterIntake_batch x serial).trans batch) (by rwa [State.censusOn, State.afterIntake_tpc]) notEligible candidate
  have chan : ∀ d, a.chan d = s.chan d := s.afterIntake_chan x serial
  have seat' : (a.chan c).seat = some y := by rwa [chan]
  obtain ⟨speaks, kind, replaceable⟩ := State.candidate_spec candidate seat'
  obtain ⟨closing, others, far, fmx, trunks, stb, told⟩ := State.replaceChan_spec candidate seat'
  rw [chan] at speaks kind closing
  refine ⟨a.replaceChan c x, (exec_micPress taken arg).trans (settled_congr replaces), closing, fun d other => (others d other).trans (chan d), ?_,
    fmx.trans (s.afterIntake_fmx x serial), trunks, ?_, told, speaks, kind, by rwa [← s.afterIntake_classOf_all x y serial]⟩
  · rw [far, State.afterIntake_far]
  · rw [stb, State.withClock, State.afterIntake_slmOf]

/-- Settles O52: each record by what its body answers, the scope by the count it has left. -/
theorem batchesCountAndFlagsClear : Obligations.BatchesCountAndFlagsClear := by
  unfold Obligations.BatchesCountAndFlagsClear
  refine ⟨fun n s takes => ⟨fun nested => ?_, fun closed zero => ?_, fun closed counts => ?_⟩,
    fun n s left => ⟨State.countBatch_lowers left, State.countBatch_done left, State.countBatch_last left true⟩, fun mask s takes => ?_,
    fun kind s takes => ⟨fun unlisted => ?_, exec_unknownRecord_listed⟩⟩
  · exact congrArg _ (State.runRecord_refuse takes 0x40 (batchBody_nested nested))
  · subst zero
    exact congrArg _ (State.runRecord_refuse takes 0x40 (batchBody_zero closed))
  · exact congrArg _ (State.runRecord_answer takes 0x40 (batchBody_opens closed counts))
  · exact congrArg _ (State.runRecord_answer takes 0x55 (clearStatusBody_eq s mask))
  · exact (exec_unknownRecord_unlisted unlisted).trans (congrArg _ (State.runRecord_refuse takes kind rfl))

end Sys2Proof.Proofs
end

section
/-! PROOF. List control: SECOND_EXPIRY and SILENCE_TIMER_EXPIRY (O15), TAKE_LIST (O37), GIVE_LIST (O38) and the records CLAIM_LIST, YIELD_LIST and
FORCE_LIST (O51). -/

namespace Sys2Proof.Machine

/-! ### The silence timer (R136, R177) -/

section
variable {s : State} {n : Nat}

theorem State.silenceDue_stopped (stopped : s.hli.silenceTimer = none) : s.silenceDue = false := by
  rw [State.silenceDue, stopped]

/-- A running timer is due at or past a nonzero limit. -/
theorem State.silenceDue_iff (timer : s.hli.silenceTimer = some n) :
    s.silenceDue = true ↔ s.mge.settings.silenceLimit ≠ 0 ∧ s.mge.settings.silenceLimit ≤ n := by
  simp only [State.silenceDue, timer, Bool.and_eq_true, decide_eq_true_eq]

theorem exec_silenceTimerExpiry_due (running : s.running = true) (due : s.silenceDue = true) :
    exec .silenceTimerExpiry s = .next s.unattend :=
  congrArg Host.Outcome.next (if_pos ⟨running, due⟩)

theorem exec_silenceTimerExpiry_early (early : s.silenceDue = false) : exec .silenceTimerExpiry s = .next s :=
  congrArg Host.Outcome.next (if_neg fun ⟨_, due⟩ => absurd (due.symm.trans early) (by decide))

/-- A second passes on the time base: its phase starts again, and a running silence timer counts (R136, R177). -/
def State.secondCounted (s : State) : State := { s with
  mge := { s.mge with secondPhase := 0 }
  hli := { s.hli with silenceTimer := s.hli.silenceTimer.map fun n => min 255 (n + 1) } }

theorem State.secondExpiry_eq (s : State) :
    s.secondExpiry = if s.secondCounted.silenceDue then s.secondCounted.unattend else s.secondCounted := rfl

theorem State.secondCounted_stopped (stopped : s.hli.silenceTimer = none) :
    s.secondCounted = { s with mge := { s.mge with secondPhase := 0 } } := by
  rw [State.secondCounted, stopped, Option.map_none, ← stopped]

theorem State.secondCounted_running (timer : s.hli.silenceTimer = some n) : s.secondCounted
    = { s with mge := { s.mge with secondPhase := 0 }, hli := { s.hli with silenceTimer := some (min 255 (n + 1)) } } := by
  rw [State.secondCounted, timer, Option.map_some]

theorem State.secondCounted_timer (timer : s.hli.silenceTimer = some n) : s.secondCounted.hli.silenceTimer = some (min 255 (n + 1)) := by
  rw [State.secondCounted_running timer]

/-- A second that leaves the timer below its limit, or stopped, only counts. -/
theorem exec_secondExpiry_early (running : s.running = true) (early : s.secondCounted.silenceDue = false) :
    exec .secondExpiry s = .next s.secondCounted := by
  rw [exec_secondExpiry running, State.secondExpiry_eq, early]
  rfl

/-- A second that brings the timer to its limit goes on as SILENCE_TIMER_EXPIRY. -/
theorem exec_secondExpiry_due (running : s.running = true) (due : s.secondCounted.silenceDue = true) :
    exec .secondExpiry s = exec .silenceTimerExpiry s.secondCounted := by
  rw [exec_secondExpiry running, State.secondExpiry_eq, if_pos due]
  exact (exec_silenceTimerExpiry_due (s := s.secondCounted) running due).symm

/-! ### The list-control fallback (R133) -/

theorem State.fallback_free (claim : s.far.claimed = false) (force : s.far.forceReturn = false) : s.fallback = s := by
  simp only [State.fallback, claim, force, Bool.false_eq_true, or_self, if_false]

theorem State.fallback_held (held : s.far.claimed = true ∨ s.far.forceReturn = true) : s.fallback
    = State.notify (.listControl false s.far.holder false) { s with far := { s.far with claimed := false, forceReturn := false } } :=
  if_pos held

theorem State.unattend_attended (attended : s.hli.attended = true) : s.unattend = State.fallback { s with
    hli := { s.hli with attended := false, silenceTimer := none }
    mge := { s.mge with flags := flagsSet .fallback s.mge.flags } } :=
  if_pos attended

end

/-! ### TAKE_LIST and GIVE_LIST (R127, R128) -/

section
variable {t : Fin 4} {position : Fin 128} {serial : Fin 16} {s : State} {x : Seat}

theorem exec_takeList (taken : s.takesEvent t position serial x) (chair : s.kindOf x = .chair) (arg : Byte) :
    exec (.takeList t position serial arg) s = .next ((s.afterIntake x serial).listTaken x).settle :=
  exec_chairEvent (kind := .takeList) taken chair fun _ _ => rfl

theorem exec_giveList (taken : s.takesEvent t position serial x) (chair : s.kindOf x = .chair) (arg : Byte) :
    exec (.giveList t position serial arg) s = .next ((s.afterIntake x serial).holderLeft x).settle :=
  exec_chairEvent (kind := .giveList) (act := fun u => u.holderLeft x) taken chair fun _ _ => rfl

theorem State.listTaken_disabled (disabled : (s.seatRec x).enabled = false) : s.listTaken x = s.place x (.listState false) :=
  if_pos (by rw [disabled]; rfl)

theorem State.listTaken_holder (enabled : (s.seatRec x).enabled = true) (holder : s.far.holder = some x) :
    s.listTaken x = s.place x (.listState true) := by
  simp only [State.listTaken, enabled, holder, Bool.not_true, Bool.false_eq_true, if_false, if_true]

/-- Another chair is told that it does not hold where the list is held, claimed or under force-return. -/
theorem State.listTaken_withheld (enabled : (s.seatRec x).enabled = true) (other : s.far.holder ≠ some x)
    (withheld : s.far.holder ≠ none ∨ s.far.claimed = true ∨ s.far.forceReturn = true) : s.listTaken x = s.place x (.listState false) := by
  have notFree : ¬(s.far.holder = none ∧ !s.far.claimed ∧ !s.far.forceReturn) := by
    rintro ⟨holder, claim, force⟩
    rcases withheld with held | claimed | forced
    · exact held holder
    · exact absurd claim (by rw [claimed]; decide)
    · exact absurd force (by rw [forced]; decide)
  simp only [State.listTaken, enabled, other, notFree, Bool.not_true, Bool.false_eq_true, if_false]

/-- A chair that takes a free list becomes its holder, and the controller is told. -/
theorem State.listTaken_free (enabled : (s.seatRec x).enabled = true) (holder : s.far.holder = none) (claim : s.far.claimed = false)
    (force : s.far.forceReturn = false) : s.listTaken x = State.notify (.listControl false (some x) false)
      (State.place x (.listState true) { s with far := { s.far with holder := some x } }) := by
  simp only [State.listTaken, State.notifyList, enabled, holder, claim, force, State.place_far, State.modFar_far, reduceCtorEq, Bool.not_true,
    Bool.not_false, Bool.false_eq_true, and_self, if_false, if_true]
  rw [State.modFar, claim, force]

theorem State.holderLeft_of_holder (holder : s.far.holder = some x) : s.holderLeft x
    = State.place x (.listState false) (State.notify (.listControl s.far.claimed none s.far.forceReturn)
      { s with far := { s.far with holder := none } }) :=
  if_pos holder

end

/-! ### CLAIM_LIST, YIELD_LIST and FORCE_LIST (R129, R130) -/

/-- The list-control record takes a value, and one LIST_CONTROL tells it (R125). -/
def State.listChanged (s : State) (f : Far) : State := State.notify (.listControl f.claimed f.holder f.forceReturn) { s with far := f }

section
variable {s : State} {x : Seat}

@[simp] theorem State.listChanged_far (f : Far) : (s.listChanged f).far = f := State.notify_far _ _

/-- A placement and a notice may be made in either order. -/
theorem State.place_notify (s : State) (n : Notice) (x : Seat) (cmd : Cmd) : (s.place x cmd).notify n = (s.notify n).place x cmd := by
  have trunks : ((s.notify n).place x cmd).trunks = (s.place x cmd).trunks :=
    State.place_trunks_congr cmd (s.notify_trunks n) (by rw [State.notify_seatRec])
  rw [(s.notify n).place_eq, trunks, State.notify_setTrunks, ← State.place_eq]

theorem State.setClaim_same {claimed : Bool} (same : s.far.claimed = claimed) : s.setClaim claimed = s := if_pos same

theorem State.setClaim_changes {claimed : Bool} (changes : s.far.claimed ≠ claimed) :
    s.setClaim claimed = s.listChanged { s.far with claimed := claimed } :=
  if_neg changes

theorem State.forceOff_clear (clear : s.far.forceReturn = false) : s.forceOff = s := if_neg (by rw [clear]; decide)

theorem State.forceOff_set (forced : s.far.forceReturn = true) : s.forceOff = s.listChanged { s.far with forceReturn := false } := if_pos forced

/-- Force-return set again, with no holder to clear, changes nothing. -/
theorem State.forceOn_set (free : s.far.holder = none) (forced : s.far.forceReturn = true) : s.forceOn = s := by
  simp only [State.forceOn, free, forced, if_true, State.modFar]
  rw [← free, ← forced]

theorem State.forceOn_clear (free : s.far.holder = none) (clear : s.far.forceReturn = false) :
    s.forceOn = s.listChanged { s.far with forceReturn := true } := by
  simp only [State.forceOn, free, clear, Bool.false_eq_true, if_false, State.notifyList, State.modFar]
  rw [State.listChanged, ← free]

/-- Force-return set takes the list from its holder, who is told. -/
theorem State.forceOn_held (held : s.far.holder = some x) :
    s.forceOn = (s.listChanged { s.far with forceReturn := true, holder := none }).place x (.listState false) := by
  simp only [State.forceOn, held, State.notifyList, State.place_notify, State.place_far]
  rfl

theorem forceListBody_badField {b : Byte} (beyond : 1 < b.toNat) : forceListBody b s = Answer.refuse .badField s := by
  have none : boolOfCode b = none := by
    rw [boolOfCode, if_neg (by rintro rfl; exact absurd beyond (by decide)), if_neg (by rintro rfl; exact absurd beyond (by decide))]
  rw [forceListBody, none]

end

section
variable {s u : State}

/-- What a record answers with the list-control record, in the words of the statement. -/
theorem State.listFields_of_far {f : Far} (far : u.far = f) :
    u.listFields = flagByte f.claimed ++ seatField f.holder ++ flagByte f.forceReturn := by
  rw [State.listFields, far]

theorem claimListBody_eq {f : Far} (set : s.setClaim true = u) (far : u.far = f) :
    claimListBody s = ⟨u, .ok, flagByte f.claimed ++ seatField f.holder ++ flagByte f.forceReturn⟩ := by
  rw [claimListBody, set, State.listFields_of_far far]

theorem yieldListBody_eq {f : Far} (set : s.setClaim false = u) (far : u.far = f) :
    yieldListBody s = ⟨u, .ok, flagByte f.claimed ++ seatField f.holder ++ flagByte f.forceReturn⟩ := by
  rw [yieldListBody, set, State.listFields_of_far far]

theorem forceListBody_off {f : Far} (off : s.forceOff = u) (far : u.far = f) :
    forceListBody 0 s = ⟨u, .ok, flagByte f.claimed ++ seatField f.holder ++ flagByte f.forceReturn⟩ := by
  rw [← State.listFields_of_far far, ← off]
  rfl

theorem forceListBody_on {f : Far} (on : s.forceOn = u) (far : u.far = f) :
    forceListBody 1 s = ⟨u, .ok, flagByte f.claimed ++ seatField f.holder ++ flagByte f.forceReturn⟩ := by
  rw [← State.listFields_of_far far, ← on]
  rfl

end

end Sys2Proof.Machine

namespace Sys2Proof.Proofs

open Sys2Proof.Machine

/-- Settles O15: a second counts, and at the limit goes on as SILENCE_TIMER_EXPIRY, which is the fallback of an engine no longer ATTENDED. -/
theorem silenceTimerLeadsToFallback : Obligations.SilenceTimerLeadsToFallback := by
  unfold Obligations.SilenceTimerLeadsToFallback
  refine ⟨fun s running stopped => ⟨?_, ?_⟩, fun s n running timer below => ?_, fun s n running timer limit reached => ?_,
    fun s n running timer limit reached attended => ?_⟩
  · exact exec_silenceTimerExpiry_early (State.silenceDue_stopped stopped)
  · have same := State.secondCounted_stopped stopped
    rw [exec_secondExpiry_early running (State.silenceDue_stopped (by rw [same]; exact stopped)), same]
  · have early : s.secondCounted.silenceDue = false := by
      refine Bool.eq_false_iff.mpr fun due => ?_
      obtain ⟨nonzero, reached⟩ := (State.silenceDue_iff (State.secondCounted_timer timer)).mp due
      exact below.elim nonzero fun less => absurd less (not_lt.mpr reached)
    rw [exec_secondExpiry_early running early, State.secondCounted_running timer]
  · have due := (State.silenceDue_iff (State.secondCounted_timer timer)).mpr ⟨limit, reached⟩
    rw [exec_secondExpiry_due running due, State.secondCounted_running timer]
  · rw [exec_silenceTimerExpiry_due running ((State.silenceDue_iff timer).mpr ⟨limit, reached⟩), State.unattend_attended attended]
    exact ⟨fun claim force => congrArg _ (State.fallback_free claim force), fun held => congrArg _ (State.fallback_held held)⟩

/-- Settles O37: an intake leaves list control and the seat's enable alone, so TAKE_LIST goes by the record as the event finds it. -/
theorem takeListNeedsAFreeList : Obligations.TakeListNeedsAFreeList := by
  unfold Obligations.TakeListNeedsAFreeList
  intro t position serial arg s x taken chair a take
  have far : a.far = s.far := s.afterIntake_far x serial
  have same : (a.seatRec x).enabled = (s.seatRec x).enabled := by rw [State.afterIntake_seatRec]
  have takes : ∀ {u : State}, a.listTaken x = u → take = .next u.settle := fun result =>
    (exec_takeList taken chair arg).trans (settled_congr result)
  refine ⟨fun lacks => ?_, fun enabled holder => ?_, fun enabled free claim force => ?_⟩
  · cases on : (s.seatRec x).enabled with
    | false => exact takes (State.listTaken_disabled (same.trans on))
    | true =>
      obtain ⟨other, withheld⟩ := lacks.resolve_left (by rw [on]; decide)
      exact takes (State.listTaken_withheld (same.trans on) (by rwa [far]) (by rwa [far]))
  · exact takes (State.listTaken_holder (same.trans enabled) (by rwa [far]))
  · rw [← far] at free claim force ⊢
    exact takes (State.listTaken_free (same.trans enabled) free claim force)

/-- Settles O38: past its intake GIVE_LIST clears the holder, if the seat is it. -/
theorem giveListReturnsControl : Obligations.GiveListReturnsControl := by
  unfold Obligations.GiveListReturnsControl
  intro t position serial arg s x taken chair a
  have far : a.far = s.far := s.afterIntake_far x serial
  rw [exec_giveList taken chair, ← far]
  exact ⟨fun holder => settled_congr (State.holderLeft_of_holder holder), fun other => settled_congr (State.holderLeft_of_ne other)⟩

/-- Settles O51: each record by what it makes of the list-control record, which its answer reads back. -/
theorem listControlRecordsChangeTheClaim : Obligations.ListControlRecordsChangeTheClaim := by
  unfold Obligations.ListControlRecordsChangeTheClaim
  intro s reply changed
  refine ⟨fun takes => ⟨fun owned => ?_, fun free claimed => ?_, fun free unclaimed => ?_⟩, fun takes => ⟨fun unclaimed => ?_, fun claimed => ?_⟩,
    fun b takes => ⟨fun beyond => ?_, fun zero clear => ?_, fun zero forced => ?_, fun one free forced => ?_, fun one free clear => ?_,
      fun x one held => ?_⟩⟩
  · exact congrArg _ (State.runRecord_owned takes owned claimListBody)
  · exact congrArg _ (State.runRecord_free takes free (claimListBody_eq (State.setClaim_same claimed) rfl))
  · exact congrArg _ (State.runRecord_free takes free
      (claimListBody_eq (State.setClaim_changes (by rw [unclaimed]; decide)) (State.listChanged_far _)))
  · exact congrArg _ (State.runRecord_answer takes 0x31 (yieldListBody_eq (State.setClaim_same unclaimed) rfl))
  · exact congrArg _ (State.runRecord_answer takes 0x31
      (yieldListBody_eq (State.setClaim_changes (by rw [claimed]; decide)) (State.listChanged_far _)))
  · exact congrArg _ (State.runRecord_refuse takes 0x32 (forceListBody_badField beyond))
  · subst zero
    exact congrArg _ (State.runRecord_answer takes 0x32 (forceListBody_off (State.forceOff_clear clear) rfl))
  · subst zero
    exact congrArg _ (State.runRecord_answer takes 0x32 (forceListBody_off (State.forceOff_set forced) (State.listChanged_far _)))
  · subst one
    exact congrArg _ (State.runRecord_answer takes 0x32 (forceListBody_on (State.forceOn_set free forced) rfl))
  · subst one
    exact congrArg _ (State.runRecord_answer takes 0x32 (forceListBody_on (State.forceOn_clear free clear) (State.listChanged_far _)))
  · subst one
    exact congrArg _ (State.runRecord_answer takes 0x32
      (forceListBody_on (State.forceOn_held held) ((State.place_far _ _ _).trans (State.listChanged_far _))))

end Sys2Proof.Proofs
end

section
/-! PROOF. The speaking limit (O16), level windows and silence release (O18), and the settings record SET_FLOOR (O54). -/

namespace Sys2Proof.Machine

section
variable {s a : State} {c : Fin 12} {x : Seat} {m : SlmChan} {p k : Nat}

/-! ### An OPEN channel closed by its own monitor (R60, R141, R148) -/

/-- A close request on an OPEN channel `c` of seat `x`, made where only SLM's record of `c`, HLI and MGE have changed since `s`: the clock `s` shows
is added, and the window of the record as it has become is aborted. -/
theorem State.closeRequest_slmChanged (cause : CloseCause) (opened : (s.chan c).state = .opened) (seat : (s.chan c).seat = some x)
    (far : a.far = s.far) (stb : a.stb = s.stb) (trunks : a.trunks = s.trunks) (fmx : a.fmx = s.fmx) (slm : a.slm = vset s.slm c m)
    (clock : m.clock = (s.slmOf c).clock) :
    (a.closeRequest c cause).chan c = { s.chan c with state := .closing, closeCause := some cause }
      ∧ (∀ d, d ≠ c → (a.closeRequest c cause).chan d = s.chan d)
      ∧ (a.closeRequest c cause).far = { s.far with channels := (a.closeRequest c cause).far.channels }
      ∧ (a.closeRequest c cause).slm = vset s.slm c m.noWindow ∧ (a.closeRequest c cause).stb = (s.withClock c x).stb
      ∧ (a.closeRequest c cause).trunks = (s.place x .close).trunks ∧ (a.closeRequest c cause).fmx = s.fmx
      ∧ a.onlyNotices [] (a.closeRequest c cause) := by
  have chan : ∀ d, a.chan d = s.chan d := fun d => by rw [State.chan, far]; rfl
  have entry : a.slmOf c = m := by rw [State.slmOf, slm, vget_vset_self]
  have seatRec : a.seatRec x = s.seatRec x := by rw [State.seatRec, stb]; rfl
  have opened' : (a.chan c).state = .opened := by rwa [chan]
  obtain ⟨closing, others, farThen, trunksThen, fmxThen, slmThen, stbThen, told⟩ :=
    State.closingOf_opened cause opened' (by rwa [chan] : (a.chan c).seat = some x)
  rw [if_pos opened'] at slmThen
  rw [if_neg (by rw [opened']; decide)] at stbThen
  refine ⟨closing.trans (by rw [chan]), fun d other => (others d other).trans (chan d), farThen.trans (by rw [far]), ?_, ?_, ?_,
    fmxThen.trans fmx, told⟩
  · rw [slmThen, State.withoutWindow, entry, slm, vset_vset]
    rfl
  · rw [stbThen]
    simp only [State.withClock, State.modSeat, entry, clock, seatRec, stb]
  · exact trunksThen.trans (State.place_trunks_congr .close trunks (by rw [seatRec]))

/-! ### The speaking limit (R140, R141) -/

theorem exec_speakWarning (running : s.running = true) (opened : (s.chan c).state = .opened) (seat : (s.chan c).seat = some x) :
    exec (.speakWarning c) s = .next (s.warnedAt c x) := by
  rw [← State.warnStep_eq opened seat]
  exact congrArg Host.Outcome.next (if_pos running)

theorem exec_speakExpiry (running : s.running = true) : exec (.speakExpiry c) s = .next (s.expireStep c).settle :=
  congrArg Host.Outcome.next (if_pos running)

/-- An expiry told already is not told again (R141). -/
theorem State.expiredAt_overrun (overrun : (s.slmOf c).overrun = true) : s.expiredAt c x = s := if_pos overrun

theorem State.expiredAt_first (first : (s.slmOf c).overrun = false) : s.expiredAt c x
    = State.notify (.expired c x (s.slmOf c).clock (s.allowanceOf x) (s.classOf x).action)
      { s with slm := vset s.slm c { s.slmOf c with overrun := true }, mge := { s.mge with flags := flagsSet .speakExpired s.mge.flags } } :=
  if_neg (by rw [first]; decide)

/-- The mark of an expiry: the seats, the trunks and FMX stay, and SLM's record is marked (R141). -/
theorem State.expiredAt_spec (s : State) (c : Fin 12) (x : Seat) :
    (s.expiredAt c x).stb = s.stb ∧ (s.expiredAt c x).trunks = s.trunks ∧ (s.expiredAt c x).fmx = s.fmx
      ∧ (s.expiredAt c x).slm = vset s.slm c { s.slmOf c with overrun := true } := by
  cases marked : (s.slmOf c).overrun with
  | true =>
    have same : { s.slmOf c with overrun := true } = s.slmOf c := by rw [← marked]
    rw [State.expiredAt_overrun marked, same]
    exact ⟨rfl, rfl, rfl, (vset_vget _ _).symm⟩
  | false =>
    rw [State.expiredAt_first marked, State.notify_stb, State.notify_trunks, State.notify_fmx, State.notify_slm]
    exact ⟨rfl, rfl, rfl, rfl⟩

/-- SPEAK_EXPIRED and EXPIRED come with the mark, and only then (R141, R150). -/
theorem State.expiredAt_onlyNotices (s : State) (c : Fin 12) (x : Seat) :
    (if (s.slmOf c).overrun then s else s.setFlag .speakExpired).onlyNotices
      (if (s.slmOf c).overrun then [] else [.expired c x (s.slmOf c).clock (s.allowanceOf x) (s.classOf x).action]) (s.expiredAt c x) := by
  cases marked : (s.slmOf c).overrun with
  | true =>
    rw [State.expiredAt_overrun marked]
    exact s.onlyNotices_refl
  | false =>
    rw [State.expiredAt_first marked]
    exact State.onlyNotices_after (b := { s.setFlag .speakExpired with slm := vset s.slm c { s.slmOf c with overrun := true } })
      (State.onlyNotices_of rfl rfl rfl rfl rfl rfl rfl rfl rfl) (State.onlyNotices_notify _ _)

/-! ### Level windows (R144, R147) -/

/-- A window with a progress and an exponent is full when the progress has come to its length. -/
theorem SlmChan.windowFull_iff (progress : m.progress = some p) (exponent : m.exponent = some k) : m.windowFull = true ↔ 2 ^ k ≤ p := by
  simp only [SlmChan.windowFull, progress, exponent, decide_eq_true_eq]

theorem SlmChan.windowDue_iff (progress : m.progress = some p) (exponent : m.exponent = some k) : m.windowDue = true ↔ p + 1 = 2 ^ k := by
  simp only [SlmChan.windowDue, progress, exponent, decide_eq_true_eq]

/-- The level result is the sum over the window's length (R147 step 1). -/
theorem SlmChan.completeWindow_eq (exponent : m.exponent = some k) (gate release : Nat) : m.completeWindow gate release = { m with
    level := some (m.sum / 2 ^ k)
    gateActive := decide (gate ≤ m.sum / 2 ^ k)
    silenceCount := if m.sum / 2 ^ k < release then min 255 (m.silenceCount + 1) else 0
    progress := none
    exponent := none
    sum := 0 } := by
  simp only [SlmChan.completeWindow, exponent, Option.getD_some, Nat.shiftRight_eq_div_pow]
  rfl

/-- A slot taken is one more sample of a running window (R144). -/
theorem SlmChan.takeFrame_eq (progress : m.progress = some p) (slot : Option (BitVec 16)) :
    m.takeFrame slot = { m with progress := some (p + 1), sum := m.sum + slotMagnitude slot } := by
  simp only [SlmChan.takeFrame, progress]

/-- A slot handed over to a channel changes SLM's and FMX's records of it alone (R30). -/
theorem State.handSlot_eq (s : State) (c : Fin 12) (slot : Option (BitVec 16)) : s.handSlot c slot
    = { s with slm := vset s.slm c ((s.slmOf c).takeFrame slot), fmx := (s.handSlot c slot).fmx } := rfl

theorem exec_levelWindowComplete (running : s.running = true) (progress : (s.slmOf c).progress = some p)
    (exponent : (s.slmOf c).exponent = some k) (last : p + 1 = 2 ^ k) (slot : Option (BitVec 16)) :
    exec (.levelWindowComplete c slot) s = .next ((s.handSlot c slot).finishWindow c).settle :=
  congrArg Host.Outcome.next (if_pos ⟨running, (SlmChan.windowDue_iff progress exponent).mpr last⟩)

/-! ### Silence release (R148) -/

theorem exec_silenceRelease (running : s.running = true) (monitor : s.mge.settings.levelMonitor = true) :
    exec (.silenceRelease c) s = .next (s.silenceStep c).settle :=
  congrArg Host.Outcome.next (if_pos ⟨running, monitor⟩)

/-- The release test passes: the channel is closed with cause SILENCE. -/
theorem State.silenceStep_releases (opened : (s.chan c).state = .opened) (seat : (s.chan c).seat = some x)
    (reached : s.mge.settings.silenceCountSetting ≤ (s.slmOf c).silenceCount) (releases : (s.classOf x).silenceRelease = true) :
    s.silenceStep c = s.closeRequest c .silence := by
  simp only [State.silenceStep, opened, seat]
  exact if_pos ⟨reached, releases⟩

/-- The release test fails, whatever the channel's state. -/
theorem State.silenceStep_keeps (seat : (s.chan c).seat = some x)
    (fails : (s.slmOf c).silenceCount < s.mge.settings.silenceCountSetting ∨ (s.classOf x).silenceRelease = false) : s.silenceStep c = s := by
  unfold State.silenceStep
  split
  · next y _ seat' =>
    obtain rfl : x = y := Option.some.inj (seat.symm.trans seat')
    refine if_neg fun ⟨reached, releases⟩ => ?_
    rw [releases] at fails
    exact fails.elim (not_lt.mpr reached) (by decide)
  · rfl

/-! ### The end of a window (R147) -/

/-- `s` with the window of channel `c` completed: level result, gate and silence count (R147 steps 1 and 2, R148). -/
def State.windowCompleted (s : State) (c : Fin 12) : State :=
  s.modSlm c fun m => m.completeWindow s.mge.settings.gateThreshold s.mge.settings.releaseThreshold

theorem State.windowCompleted_slmOf (s : State) (c : Fin 12) : (s.windowCompleted c).slmOf c
    = (s.slmOf c).completeWindow s.mge.settings.gateThreshold s.mge.settings.releaseThreshold :=
  s.modSlm_slmOf_self c _

/-- A window that is not full stays. -/
theorem State.finishWindow_running (progress : (s.slmOf c).progress = some p) (exponent : (s.slmOf c).exponent = some k) (early : p < 2 ^ k) :
    s.finishWindow c = s :=
  if_neg fun full => absurd ((SlmChan.windowFull_iff progress exponent).mp full) (not_le.mpr early)

/-- A full window completes; the next one starts only where the release test has left the channel OPEN (R147 step 3). -/
theorem State.finishWindow_full (progress : (s.slmOf c).progress = some p) (exponent : (s.slmOf c).exponent = some k) (full : 2 ^ k ≤ p) :
    s.finishWindow c = if (((s.windowCompleted c).silenceStep c).chan c).state = .opened
      then ((s.windowCompleted c).silenceStep c).startWindow c else (s.windowCompleted c).silenceStep c := by
  rw [State.finishWindow, if_pos ((SlmChan.windowFull_iff progress exponent).mpr full)]
  rfl

/-- A full window on whose completion the release test passes ends with the channel CLOSING (R148). -/
theorem State.finishWindow_releases (opened : (s.chan c).state = .opened) (seat : (s.chan c).seat = some x)
    (progress : (s.slmOf c).progress = some p) (exponent : (s.slmOf c).exponent = some k) (full : 2 ^ k ≤ p)
    (reached : s.mge.settings.silenceCountSetting ≤ ((s.windowCompleted c).slmOf c).silenceCount)
    (releases : (s.classOf x).silenceRelease = true) : s.finishWindow c = (s.windowCompleted c).closeRequest c .silence := by
  have step : (s.windowCompleted c).silenceStep c = (s.windowCompleted c).closeRequest c .silence :=
    State.silenceStep_releases opened seat reached releases
  obtain ⟨closing, -⟩ := State.closingOf_opened (s := s.windowCompleted c) .silence opened seat
  rw [State.finishWindow_full progress exponent full, step, closing]
  exact if_neg ChanState.noConfusion

/-- A full window on whose completion the release test fails is followed by the next (R147 step 3). -/
theorem State.finishWindow_restarts (opened : (s.chan c).state = .opened) (seat : (s.chan c).seat = some x)
    (progress : (s.slmOf c).progress = some p) (exponent : (s.slmOf c).exponent = some k) (full : 2 ^ k ≤ p)
    (monitor : s.mge.settings.levelMonitor = true)
    (fails : ((s.windowCompleted c).slmOf c).silenceCount < s.mge.settings.silenceCountSetting ∨ (s.classOf x).silenceRelease = false) :
    s.finishWindow c = { s with slm := vset s.slm c { (s.windowCompleted c).slmOf c with
      progress := some 0, exponent := some s.mge.settings.windowExponent, sum := 0 } } := by
  have step : (s.windowCompleted c).silenceStep c = s.windowCompleted c := State.silenceStep_keeps seat fails
  have starts : (s.windowCompleted c).startWindow c = (s.windowCompleted c).modSlm c
      fun m => { m with progress := some 0, exponent := some s.mge.settings.windowExponent, sum := 0 } := if_pos monitor
  rw [State.finishWindow_full progress exponent full, step]
  refine (if_pos opened).trans (starts.trans ?_)
  rw [State.modSlm]
  exact congrArg (fun v => { s with slm := v }) (vset_vset _ _ _ _)

/-- The same where a frame has just brought SLM's record of the channel to `m`. -/
theorem State.finishWindow_filled {fmx : Fmx} (opened : (s.chan c).state = .opened) (seat : (s.chan c).seat = some x)
    (progress : m.progress = some p) (exponent : m.exponent = some k) (full : 2 ^ k ≤ p) (monitor : s.mge.settings.levelMonitor = true)
    (fails : (m.completeWindow s.mge.settings.gateThreshold s.mge.settings.releaseThreshold).silenceCount < s.mge.settings.silenceCountSetting
      ∨ (s.classOf x).silenceRelease = false) :
    State.finishWindow { s with slm := vset s.slm c m, fmx := fmx } c = { s with
      slm := vset s.slm c { m.completeWindow s.mge.settings.gateThreshold s.mge.settings.releaseThreshold with
        progress := some 0, exponent := some s.mge.settings.windowExponent, sum := 0 }
      fmx := fmx } := by
  generalize filled : ({ s with slm := vset s.slm c m, fmx := fmx } : State) = a
  have entry : a.slmOf c = m := by rw [← filled]; exact vget_vset_self _ _ _
  have restarts := State.finishWindow_restarts (s := a) (c := c) (x := x) (by rw [← filled]; exact opened) (by rw [← filled]; exact seat)
    (by rw [entry]; exact progress) (by rw [entry]; exact exponent) full (by rw [← filled]; exact monitor)
    (by rw [State.windowCompleted_slmOf, entry, ← filled]; exact fails)
  rw [restarts, State.windowCompleted_slmOf, entry, ← filled, vset_vset]

end

/-! ### Numbers held to their ranges (R180) -/

theorem clampNat_eq {lo hi : Nat} (range : lo ≤ hi) (n : Nat) : clampNat lo hi n = max lo (min hi n) := by
  simp only [clampNat]
  split <;> [omega; split <;> omega]

/-- A number named, of either width, is held to its range; one left out stays. -/
theorem numOr_named {lo hi w : Nat} (range : lo ≤ hi) (o : Option (BitVec w)) (held : Nat) :
    numOr lo hi (o.map BitVec.toNat) held = (o.map fun b => max lo (min hi b.toNat)).getD held := by
  cases o with
  | none => rfl
  | some b => exact clampNat_eq range b.toNat

/-! ### One change of SLM at each channel -/

/-- A run over channels, each met once, that changes SLM's record of each and reads nothing else that it changes. -/
theorem State.foldl_slm {s : State} {step : State → Fin 12 → State} {change : Fin 12 → SlmChan → SlmChan}
    (changes : ∀ v c, step { s with slm := v } c = { s with slm := vset v c (change c (vget v c)) }) (l : List (Fin 12)) (once : l.Nodup) :
    ∃ v, l.foldl step s = { s with slm := v } ∧ ∀ c, vget v c = if c ∈ l then change c (s.slmOf c) else s.slmOf c := by
  induction l using List.reverseRecOn with
  | nil => exact ⟨s.slm, rfl, fun _ => rfl⟩
  | append_singleton l c ih =>
    rw [List.nodup_append] at once
    have fresh : c ∉ l := fun mem => once.2.2 c mem c List.mem_cons_self rfl
    obtain ⟨v, run, entries⟩ := ih once.1
    refine ⟨vset v c (change c (vget v c)), ?_, fun d => ?_⟩
    · rw [List.foldl_append, run, List.foldl_cons, List.foldl_nil, changes]
    · rw [vget_vset, entries, entries, if_neg fresh]
      by_cases here : c = d
      · subst here
        simp
      · simp [here, Ne.symm here]

/-- Over all twelve channels. -/
theorem State.foldl_slm_all {s : State} {step : State → Fin 12 → State} {change : Fin 12 → SlmChan → SlmChan}
    (changes : ∀ v c, step { s with slm := v } c = { s with slm := vset v c (change c (vget v c)) }) :
    allChans.foldl step s = { s with slm := Vector.ofFn fun c => change c (s.slmOf c) } := by
  obtain ⟨v, run, entries⟩ := State.foldl_slm changes allChans (by decide)
  have all : v = Vector.ofFn fun c => change c (s.slmOf c) := vget_ext fun c => by
    rw [entries, if_pos (show c ∈ allChans from List.mem_finRange c), vget_ofFn]
  rw [run, all]

/-! ### The level monitor turned on and off (R149) -/

/-- SLM's record of channel `c` once the level monitor has gone on or off: on, a window of exponent `k` starts where the channel is OPEN; off, its
window ends with the gate active. -/
def State.monitoredAt (s : State) (on : Bool) (k : Nat) (c : Fin 12) : SlmChan :=
  if on then
    if (s.chan c).state = .opened then { s.slmOf c with progress := some 0, exponent := some k, sum := 0 } else s.slmOf c
  else { s.slmOf c with progress := none, exponent := none, sum := 0, gateActive := true, silenceCount := 0 }

theorem State.monitorChanged_off (s : State) :
    s.monitorChanged false = { s with slm := Vector.ofFn (s.monitoredAt false s.mge.settings.windowExponent) } :=
  State.foldl_slm_all
    (change := fun _ m => { m with progress := none, exponent := none, sum := 0, gateActive := true, silenceCount := 0 }) fun _ _ => rfl

theorem State.monitorChanged_on {s : State} (on : s.mge.settings.levelMonitor = true) :
    s.monitorChanged true = { s with slm := Vector.ofFn (s.monitoredAt true s.mge.settings.windowExponent) } := by
  refine State.foldl_slm_all (change := fun c m => if (s.chan c).state = .opened then
    { m with progress := some 0, exponent := some s.mge.settings.windowExponent, sum := 0 } else m) fun v c => ?_
  rw [if_pos rfl]
  by_cases opened : (s.chan c).state = .opened
  · rw [if_pos opened]
    exact (if_pos opened).trans (if_pos on)
  · rw [if_neg opened, vset_vget]
    exact if_neg opened

/-- SLM follows the level monitor in the direction the settings have it (R149). -/
theorem State.monitorChanged_eq {s : State} {on : Bool} (monitor : s.mge.settings.levelMonitor = on) :
    s.monitorChanged on = { s with slm := Vector.ofFn (s.monitoredAt on s.mge.settings.windowExponent) } := by
  cases on with
  | true => exact State.monitorChanged_on monitor
  | false => exact s.monitorChanged_off

/-! ### SET_FLOOR (R180, R181) -/

/-- A new mode, a new floor limit or a lower reserve is a promotion trigger (R181 step 2). -/
theorem Settings.triggers_iff (old new : Settings) : old.triggers new = true
    ↔ new.mode ≠ old.mode ∨ new.floorLimit ≠ old.floorLimit ∨ new.chairReserve < old.chairReserve := by
  simp only [Settings.triggers, Bool.or_eq_true, decide_eq_true_eq, or_assoc, ne_comm]

/-- A trigger made or not made. -/
theorem State.trigger_ifMade (s : State) (made : Bool) : (if made then s.trigger else s)
    = { s with far := { s.far with promotionDeferred := s.far.promotionDeferred || made } } := by
  cases made with
  | true => rw [Bool.or_true]; rfl
  | false => rw [Bool.or_false]; rfl

/-- `s` with new settings: SLM has followed a change of the level monitor, and a promotion is owed where the change is a trigger (R149, R181). -/
def State.withSettings (s : State) (new : Settings) : State := { s with
  mge := { s.mge with settings := new }
  far := { s.far with promotionDeferred := s.far.promotionDeferred || s.mge.settings.triggers new }
  slm := if new.levelMonitor = s.mge.settings.levelMonitor then s.slm
    else Vector.ofFn (s.monitoredAt new.levelMonitor new.windowExponent) }

theorem State.setSettings_eq (s : State) (new : Settings) : s.setSettings new = s.withSettings new := by
  unfold State.setSettings State.withSettings
  extract_lets s1 s2
  rw [State.trigger_ifMade]
  by_cases same : new.levelMonitor = s.mge.settings.levelMonitor
  · have unmonitored : s2 = s1 := if_pos same.symm
    rw [unmonitored, if_pos same]
    rfl
  · have followed : s2 = { s1 with slm := Vector.ofFn (s1.monitoredAt new.levelMonitor new.windowExponent) } :=
      (if_neg (Ne.symm same)).trans (State.monitorChanged_eq (s := s1) rfl)
    rw [followed, if_neg same]
    rfl

theorem setFloorBody_badField {p : SetFloorParams} (undefined : p.codesOk = false) (s : State) : setFloorBody p s = Answer.refuse .badField s :=
  if_pos (by rw [undefined]; rfl)

theorem setFloorBody_sets {p : SetFloorParams} (defined : p.codesOk = true) (s : State) : setFloorBody p s
    = ⟨(s.withSettings (p.apply s.mge.settings)).settle, clampStatus (p.clamped s.mge.settings), (p.apply s.mge.settings).fields⟩ := by
  rw [← State.setSettings_eq]
  exact if_neg (by rw [defined]; decide)

end Sys2Proof.Machine

namespace Sys2Proof.Proofs

open Sys2Proof.Machine

/-- Settles O16: each command is its test of a comparison; the close of an expiry meets the channel as the mark has left it. -/
theorem speakingLimitWarnsAndExpires : Obligations.SpeakingLimitWarnsAndExpires := by
  unfold Obligations.SpeakingLimitWarnsAndExpires
  intro s c x running opened seat allowed
  have expires : ∀ {u : State}, s.expireStep c = u → exec (.speakExpiry c) s = .next u.settle := fun result =>
    (exec_speakExpiry running).trans (settled_congr result)
  refine ⟨fun leads due first => ?_, fun warned => ?_, fun due first notify => expires ?_, fun due again notify => expires ?_,
    fun due close => ?_⟩
  · rw [exec_speakWarning running opened seat, State.warnedAt, if_pos ⟨allowed, leads, first, due⟩]
  · rw [exec_speakWarning running opened seat, State.warnedAt, if_neg (by simp [warned])]
  · rw [State.expireStep_due opened seat allowed due, notify]
    exact (State.expiredAt_first first).trans (by rw [notify])
  · rw [State.expireStep_due opened seat allowed due, notify]
    exact State.expiredAt_overrun again
  · obtain ⟨stb, trunks, fmx, slm⟩ := s.expiredAt_spec c x
    obtain ⟨closing, others, far, slmThen, stbThen, trunksThen, fmxThen, told⟩ :=
      State.closeRequest_slmChanged .time opened seat (s.expiredAt_far c x) stb trunks fmx slm rfl
    have marked := s.expiredAt_onlyNotices c x
    rw [close] at marked
    exact ⟨_, expires (by rw [State.expireStep_due opened seat allowed due, close]), closing, others, far, slmThen, stbThen, trunksThen, fmxThen,
      State.onlyNotices_then marked told⟩

/-- Settles O18: the slot handed over fills the window, and a full window completes, meets the release test, and is followed by the next. -/
theorem levelWindowGatesAndReleases : Obligations.LevelWindowGatesAndReleases := by
  unfold Obligations.LevelWindowGatesAndReleases
  refine ⟨fun s c x slot p k running opened seat progress exponent last monitor => ?_,
    fun s c x running opened seat monitor reached releases => ?_, fun s c x running seat fails monitor => ?_,
    fun s c slot p k running progress exponent last => ?_, fun s c x p k opened seat progress exponent monitor => ?_⟩
  · intro sum l silent fails
    have taken := SlmChan.takeFrame_eq progress slot
    have completed : ((s.slmOf c).takeFrame slot).completeWindow s.mge.settings.gateThreshold s.mge.settings.releaseThreshold
        = { s.slmOf c with
          level := some l, gateActive := decide (s.mge.settings.gateThreshold ≤ l), silenceCount := silent
          progress := none, exponent := none, sum := 0 } :=
      (SlmChan.completeWindow_eq (by rw [taken, exponent]) _ _).trans (by rw [taken]; rfl)
    rw [exec_levelWindowComplete running progress exponent last, State.handSlot_eq,
      State.finishWindow_filled opened seat (by rw [taken]) (by rw [taken, exponent]) last.ge monitor (by rw [completed]; exact fails.symm),
      completed]
    rfl
  · obtain ⟨closing, others, far, slm, stb, trunks, fmx, told⟩ :=
      State.closeRequest_slmChanged .silence opened seat rfl rfl rfl rfl (vset_vget _ _).symm rfl
    exact ⟨_, (exec_silenceRelease running monitor).trans (settled_congr (State.silenceStep_releases opened seat reached releases)), closing,
      others, far, slm, stb, trunks, fmx, told⟩
  · rw [exec_silenceRelease running monitor, State.silenceStep_keeps seat fails]
  · rw [exec_levelWindowComplete running progress exponent last, State.handSlot_eq, SlmChan.takeFrame_eq progress]
    rfl
  · intro l silent ended
    have completed : (s.windowCompleted c).slmOf c = ended := (s.windowCompleted_slmOf c).trans (SlmChan.completeWindow_eq exponent _ _)
    refine ⟨State.finishWindow_running progress exponent, fun full releases reached => ?_, fun full fails => ?_⟩
    · intro u
      have closes : u = (s.windowCompleted c).closeRequest c .silence :=
        State.finishWindow_releases opened seat progress exponent full (by rwa [completed]) releases
      clear_value u
      rw [closes]
      obtain ⟨closing, others, far, slm, stb, trunks, fmx, told⟩ :=
        State.closeRequest_slmChanged (a := s.windowCompleted c) (m := ended) .silence opened seat rfl rfl rfl rfl
          (congrArg (vset s.slm c) (SlmChan.completeWindow_eq exponent _ _)) rfl
      exact ⟨closing, others, far, slm, fmx, stb, trunks, State.onlyNotices_after (State.onlyNotices_of rfl rfl rfl rfl rfl rfl rfl rfl rfl) told⟩
    · rw [State.finishWindow_restarts opened seat progress exponent full monitor (by rw [completed]; exact fails.symm), completed]

/-- Settles O54: the body answers with the settings applied, and each number is what its range leaves of the one named. -/
theorem setFloorReplacesSettings : Obligations.SetFloorReplacesSettings := by
  unfold Obligations.SetFloorReplacesSettings
  intro p s takes old new trigger u
  refine ⟨fun undefined => ?_, fun defined => ?_, ?_⟩
  · exact congrArg _ (State.runRecord_refuse takes 0x50 (setFloorBody_badField undefined s))
  · have made : s.mge.settings.triggers new = decide trigger := Bool.eq_iff_iff.mpr
      ((Settings.triggers_iff _ _).trans (decide_eq_true_iff (p := trigger)).symm)
    have sets : s.withSettings new = u := by
      unfold State.withSettings
      rw [made]
      rfl
    rw [← sets]
    exact congrArg _ (State.runRecord_answer takes 0x50 (setFloorBody_sets defined s))
  · refine ⟨numOr_named (by decide) _ _, ?_, numOr_named (by decide) _ _, numOr_named (by decide) _ _, numOr_named (by decide) _ _, ?_⟩
    · exact congrArg (min · (new.floorLimit - 1)) ((numOr_named (Nat.zero_le 4) _ _).trans (by simp only [Nat.zero_max]))
    · exact (numOr_named (Nat.zero_le 300) _ _).trans (by simp only [Nat.zero_max])

end Sys2Proof.Proofs
end

section
/-! PROOF. The mix computation (O12) and the product of a sample and a multiplier (O13). -/

namespace Sys2Proof.Machine

/-! ### Gain codes and multipliers (R155, R156) -/

theorem clampGain_eq (g : Int) : clampGain g = max (-80) (min 12 g) := by
  unfold clampGain clampInt
  split <;> [omega; split <;> omega]

theorem clampGain_le (g : Int) : clampGain g ≤ 12 := by
  rw [clampGain_eq]
  omega

theorem clampGain_nonpos {g : Int} (cut : g ≤ 0) : clampGain g ≤ 0 := by
  rw [clampGain_eq]
  omega

/-- A mantissa is at most the last of its table, which is below twice the first. -/
theorem mantissa_le {r : Nat} (octave : r < 12) : mantissa r ≤ 30862 := by
  have table : ∀ r < 12, mantissa r ≤ 30862 := by decide
  exact table r octave

/-- From 0 on, below a whole octave up, the multiplier is the mantissa itself. -/
theorem multiplier_of_octave {g : Int} (low : 0 ≤ g) (high : g < 12) : multiplier g = mantissa g.toNat := by
  have octave : g / 12 = 0 := by omega
  have step : g % 12 = g := by omega
  simp [multiplier, octave, step]

/-- A negative gain code halves its mantissa at least once. -/
theorem multiplier_of_neg {g : Int} (cut : g < 0) : multiplier g ≤ 15431 := by
  obtain ⟨k, octave⟩ : ∃ k, (-(g / 12)).toNat = k + 1 := ⟨(-(g / 12)).toNat - 1, by omega⟩
  have table : mantissa (g % 12).toNat ≤ 30862 := mantissa_le (by omega)
  have halved : multiplier g = (mantissa (g % 12).toNat / 2) >>> k := by
    rw [multiplier, if_neg (by omega), octave, Nat.add_comm, Nat.shiftRight_add, Nat.shiftRight_one]
  rw [halved, Nat.shiftRight_eq_div_pow]
  exact (Nat.div_le_self _ _).trans (Nat.div_le_of_le_mul table)

/-- Unity at most: a code of 0 or below amplifies nothing. -/
theorem multiplier_le_unity {g : Int} (cut : g ≤ 0) : multiplier g ≤ 16384 := by
  obtain neg | rfl : g < 0 ∨ g = 0 := by omega
  · exact (multiplier_of_neg neg).trans (by decide)
  · decide

/-- The highest code, +12, doubles; no other code exceeds it. -/
theorem multiplier_le_double {g : Int} (top : g ≤ 12) : multiplier g ≤ 32768 := by
  obtain neg | ⟨low, high⟩ | rfl : g < 0 ∨ (0 ≤ g ∧ g < 12) ∨ g = 12 := by omega
  · exact (multiplier_of_neg neg).trans (by decide)
  · rw [multiplier_of_octave low high]
    exact (mantissa_le (by omega)).trans (by decide)
  · decide

/-! ### The product of a sample and a multiplier (R157) -/

/-- Adding a half and rounding down is rounding to the nearest, a half upwards. -/
theorem gained_eq_floor (x : Int) (m : Nat) : gained x m = ⌊(((x * m + 8192 : Int) : Rat) / 16384)⌋ :=
  (Rat.floor_intCast_div_natCast (x * m + 8192) 16384).symm

theorem gained_unity (x : Int) : gained x 16384 = x := by
  unfold gained
  omega

/-- A product is at most that of the highest sample and the highest multiplier. -/
theorem gained_le {x hi : Int} {m top : Nat} (sample : x ≤ hi) (sign : 0 ≤ hi) (gain : m ≤ top) : gained x m ≤ gained hi top := by
  have product : x * m ≤ hi * top := calc
    x * m ≤ hi * m := Int.mul_le_mul_of_nonneg_right sample (Int.natCast_nonneg m)
    _ ≤ hi * top := Int.mul_le_mul_of_nonneg_left (Int.ofNat_le.mpr gain) sign
  unfold gained
  omega

/-- A product is at least that of the lowest sample and the highest multiplier. -/
theorem le_gained {x lo : Int} {m top : Nat} (sample : lo ≤ x) (sign : lo ≤ 0) (gain : m ≤ top) : gained lo top ≤ gained x m := by
  have product : lo * top ≤ x * m := calc
    lo * top ≤ lo * m := Int.mul_le_mul_of_nonpos_left sign (Int.ofNat_le.mpr gain)
    _ ≤ x * m := Int.mul_le_mul_of_nonneg_right sample (Int.natCast_nonneg m)
  unfold gained
  omega

/-! ### The two paths of a channel (R153, R155, R158, R159) -/

section
variable {s : State} {c : Fin 12}

/-- The product of channel `c` on a path that adds `offset` of its seat's class to the seat's trim; 0 where the channel is not OPEN. -/
def State.pathProduct (s : State) (c : Fin 12) (offset : ClassRec → Int) : Int :=
  match (s.chan c).state, (s.chan c).seat with
  | .opened, some x => gained (s.fmxOf c).input (multiplier (clampGain ((s.seatRec x).trim + offset (s.classOf x))))
  | _, _ => 0

theorem State.pathProduct_opened {x : Seat} {offset : ClassRec → Int} (opened : (s.chan c).state = .opened) (seat : (s.chan c).seat = some x) :
    s.pathProduct c offset = gained (s.fmxOf c).input (multiplier (clampGain ((s.seatRec x).trim + offset (s.classOf x)))) := by
  simp only [State.pathProduct, opened, seat]

theorem State.pathProduct_silent {offset : ClassRec → Int}
    (silent : ∀ x, (s.chan c).state = .opened → (s.chan c).seat = some x → False) : s.pathProduct c offset = 0 := by
  unfold State.pathProduct
  split
  · next opened seat => exact (silent _ opened seat).elim
  · rfl

theorem State.slotProduct_eq (s : State) (c : Fin 12) : s.slotProduct c = s.pathProduct c fun _ => 0 := by
  unfold State.slotProduct State.slotGain
  split
  · next opened seat => simp only [State.pathProduct_opened opened seat, gainedBy, Int.add_zero]
  · next silent => rw [State.pathProduct_silent silent, gainedBy]

theorem State.mixProduct_eq (s : State) (c : Fin 12) (n : Nat) :
    gainedBy (s.fmxOf c).input (s.mixGain c n) = s.pathProduct c fun r => r.offset - n := by
  unfold State.mixGain
  split
  · next opened seat => simp only [State.pathProduct_opened opened seat, gainedBy, Int.add_sub_assoc]
  · next silent => rw [State.pathProduct_silent silent, gainedBy]

theorem State.mixSum_eq (s : State) : s.mixSum = (allChans.map fun c => s.pathProduct c fun r => r.offset - s.attenuationNow).sum := by
  simp only [State.mixSum, State.mixProduct_eq, List.sum_eq_foldl]

/-! ### What a computation leaves (R153, R160) -/

/-- A computation clips where the sum or any slot sample is saturated. -/
theorem State.clips_iff (s : State) :
    s.clips = true ↔ s.mixSum ≠ saturate16 s.mixSum ∨ ∃ c, s.slotProduct c ≠ saturate16 (s.slotProduct c) := by
  have all : ∀ c : Fin 12, c ∈ allChans := List.mem_finRange
  simp [State.clips, all]

theorem State.mixed_chan (s : State) (c : Fin 12) : vget s.mixed.chans c = s.mixedChan c := vget_ofFn ..

/-- The status flags after a computation. -/
def State.mixFlags (s : State) : BitVec 14 := if s.clips then flagsSet .clip s.mge.flags else s.mge.flags

theorem State.mixFlags_of_clips (clips : s.clips = true) : s.mixFlags = flagsSet .clip s.mge.flags := if_pos clips

theorem State.mixFlags_of_not_clips (inRange : ¬ s.clips = true) : s.mixFlags = s.mge.flags := if_neg inRange

/-- A computation changes FMX and the flags only. -/
theorem State.mixComputation_eq (s : State) : s.mixComputation = { s with fmx := s.mixed, mge := { s.mge with flags := s.mixFlags } } := by
  unfold State.mixComputation State.mixFlags
  split <;> rfl

/-! ### The time base (R136) -/

theorem State.frameTick_early (early : s.mge.decisecondPhase + 1 < 1600) :
    s.frameTick = { s with mge := { s.mge with decisecondPhase := s.mge.decisecondPhase + 1 } } :=
  if_neg (Nat.not_le.mpr early)

/-- The 1,600th frame time is a DECISECOND_EXPIRY. -/
theorem State.frameTick_due (running : s.running = true) (due : 1600 ≤ s.mge.decisecondPhase + 1) :
    Host.Outcome.next s.frameTick = exec .decisecondExpiry s := by
  have expires : s.frameTick = s.decisecondExpiry := if_pos due
  rw [expires]
  exact (congrArg Host.Outcome.next (if_pos running)).symm

theorem exec_mixComputation (running : s.running = true) :
    exec .mixComputation s
      = .next (State.frameTick { s with fmx := s.mixed, mge := { s.mge with flags := s.mixFlags } }) := by
  rw [← s.mixComputation_eq]
  exact congrArg Host.Outcome.next (if_pos running)

end

end Sys2Proof.Machine

namespace Sys2Proof.Proofs

open Sys2Proof.Machine

/-- Settles O12: the statement's paths are the model's products, and the frame time is counted once FMX and the flags stand. -/
theorem mixComputationSumsOpenChannels : Obligations.MixComputationSumsOpenChannels := by
  unfold Obligations.MixComputationSumsOpenChannels
  intro s running n att input path total clip
  have slots : ∀ c, path c (fun _ => 0) = s.slotProduct c := fun c => (s.slotProduct_eq c).symm
  have sum : total = s.mixSum := s.mixSum_eq.symm
  have clips : s.clips = true ↔ clip := by
    simp only [s.clips_iff, clip, sum, slots]
  refine ⟨s.mixed, s.mixFlags, ⟨congrArg saturate16 sum.symm, rfl, rfl, clips, fun c => ?_⟩,
    fun clipped => State.mixFlags_of_clips (clips.mpr clipped), fun inRange => State.mixFlags_of_not_clips (mt clips.mp inRange),
    fun early => ?_, fun due => ?_⟩
  · rw [s.mixed_chan, slots]
    exact ⟨rfl, rfl, rfl⟩
  · exact (exec_mixComputation running).trans (congrArg Host.Outcome.next (State.frameTick_early early))
  · exact (exec_mixComputation running).trans (State.frameTick_due running due)

/-- Settles O13: a product lies between those of the lowest and the highest sample by the highest multiplier its gain code allows. -/
theorem productRoundsHalfUp : Obligations.ProductRoundsHalfUp := by
  unfold Obligations.ProductRoundsHalfUp
  refine ⟨gained_eq_floor, fun x m low high gain => ?_, fun g => multiplier_le_double (clampGain_le g), fun x m low high gain => ?_,
    fun g cut => multiplier_le_unity (clampGain_nonpos cut), by decide, gained_unity⟩
  · have least : gained (-32768) 32768 = -65536 := by decide
    have greatest : gained 32767 32768 = 65534 := by decide
    exact ⟨least ▸ le_gained low (by decide) gain, greatest ▸ gained_le high (by decide) gain⟩
  · exact ⟨(gained_unity (-32768)).ge.trans (le_gained low (by decide) gain),
      (gained_le high (by decide) gain).trans (gained_unity 32767).le⟩

end Sys2Proof.Proofs
end

section
/-! PROOF. The step and the empty queue (O1, O2), the hardware resets (O6), and what queuing a notice comes to (O19). -/

namespace Sys2Proof.Machine

section
variable {s : State}

/-! ### The step (R169, R170) -/

theorem step_of_pending {i : Instr} {rest : List Instr} (front : s.pending = i :: rest) : step s = exec i { s with pending := rest } := by
  simp only [step, front]

theorem step_of_empty (empty : s.pending = []) : step s = idle s := by
  simp only [step, empty]

theorem idle_command {i : Instr} (waits : s.nextWaiting = some (.command i)) : idle s = exec i s := by
  simp only [idle, waits]

theorem idle_badLength {kind : Byte} (waits : s.nextWaiting = some (.badLength kind)) : idle s = .next (s.answerBadLength kind) := by
  simp only [idle, waits]

theorem idle_none (nothing : s.nextWaiting = none) : idle s = .next (if s.running then s.endOwnBatch else s) := by
  simp only [idle, nothing]

/-- A record that waits next is a record of an accepted packet, and no start-up hold is in force (R169, R191). -/
theorem State.nextRecord_of_waiting {w : Waiting} (waits : s.nextWaiting = some w) : s.nextRecord.isSome = true := by
  unfold State.nextWaiting at waits
  split at waits
  · obtain ⟨r, record, -⟩ := Option.map_eq_some_iff.mp waits
    exact Option.isSome_of_eq_some record
  · cases waits

/-- While the engine runs, nothing waits only where no record of an accepted packet is left (R169). -/
theorem State.nextRecord_of_none (nothing : s.nextWaiting = none) (running : s.running = true) : s.nextRecord = none := by
  rw [State.nextWaiting, if_pos running] at nothing
  exact Option.map_eq_none_iff.mp nothing

theorem State.answerBadLength_eq {kind : Byte} (record : s.nextRecord.isSome = true) : s.answerBadLength kind = s.afterRecord s kind .badField [] := by
  simp only [State.answerBadLength, State.afterRecord, record]

/-! ### The start-up hold (R191) -/

theorem State.running_iff : s.running = true ↔ s.startUpHold = none := Option.isNone_iff_eq_none

theorem exec_startUpHoldEnd_held {n : Nat} (held : s.startUpHold = some n) : exec .startUpHoldEnd s = .next s.endHold :=
  congrArg Host.Outcome.next (if_neg fun running => Option.some_ne_none n (held.symm.trans (State.running_iff.mp running)))

theorem exec_startUpHoldEnd_running (ended : s.startUpHold = none) : exec .startUpHoldEnd s = .next s :=
  congrArg Host.Outcome.next (if_pos (State.running_iff.mpr ended))

/-! ### Queuing a notice (R173) -/

variable {n : Notice}

theorem State.notify_disabled (disabled : s.hli.noticeMask.getLsbD (n.code - 1) = false) : s.notify n = s :=
  if_neg (ne_true_of_eq_false disabled)

theorem State.notify_joins (enabled : s.hli.noticeMask.getLsbD (n.code - 1) = true) (room : s.hli.noticeQueue.length < 32) :
    s.notify n = { s with hli := { s.hli with noticeQueue := s.hli.noticeQueue ++ [n] } } :=
  (if_pos enabled).trans (if_pos room)

theorem State.notify_lost (enabled : s.hli.noticeMask.getLsbD (n.code - 1) = true) (full : 32 ≤ s.hli.noticeQueue.length) :
    s.notify n = { s with mge := { s.mge with noticesLost := min 255 (s.mge.noticesLost + 1), flags := flagsSet .noticeLost s.mge.flags } } :=
  (if_pos enabled).trans (if_neg (not_lt.mpr full))

end

end Sys2Proof.Machine

namespace Sys2Proof.Proofs

open Sys2Proof.Machine

/-- Settles O1. -/
theorem stepRunsFrontCommand : Obligations.StepRunsFrontCommand := by
  unfold Obligations.StepRunsFrontCommand
  intro i rest s front
  exact step_of_pending front

/-- Settles O2: an empty queue leaves the step to MGE, which finds a record, one of a wrong length, or none. -/
theorem emptyQueueRunsWaitingRecord : Obligations.EmptyQueueRunsWaitingRecord := by
  unfold Obligations.EmptyQueueRunsWaitingRecord
  intro s empty
  rw [step_of_empty empty]
  refine ⟨fun i waits => idle_command waits, fun kind waits => ?_, fun nothing closed => ?_, fun nothing running opened => ?_⟩
  · rw [idle_badLength waits, State.answerBadLength_eq (State.nextRecord_of_waiting waits)]
  · rw [idle_none nothing]
    rcases closed with held | noBatch
    · rw [if_neg (ne_true_of_eq_false held)]
    · rw [State.endOwnBatch_keep (.inl noBatch), ite_self]
  · rw [idle_none nothing, if_pos running, State.endOwnBatch_end opened (State.nextRecord_of_none nothing running)]

/-- Settles O6. -/
theorem hardwareResetsRestartEngine : Obligations.HardwareResetsRestartEngine := by
  unfold Obligations.HardwareResetsRestartEngine
  exact ⟨fun _ => rfl, fun _ => rfl, fun _ => rfl, fun _ _ held => exec_startUpHoldEnd_held held, fun _ ended => exec_startUpHoldEnd_running ended⟩

/-- Settles O19. -/
theorem noticesPassMaskAndQueue : Obligations.NoticesPassMaskAndQueue := by
  unfold Obligations.NoticesPassMaskAndQueue
  exact fun n s => ⟨State.notify_disabled, State.notify_joins, State.notify_lost⟩

end Sys2Proof.Proofs
end

section
/-! PROOF. The hall link: its runs of valid and bad frames (O8), and its loss while UP (O9). -/

namespace Sys2Proof.Machine

section
variable {s : State} {f : List Byte}

/-! ### Commands of the hall link (R164, R165) -/

theorem exec_hallFrameValid (running : s.running = true) (valid : hallFrameOk f = true) : exec (.hallFrameValid f) s = .next (s.hallValid f) :=
  congrArg Host.Outcome.next ((if_pos running).trans (if_pos valid))

theorem exec_hallFrameInvalid (running : s.running = true) (bad : hallFrameOk f = false) : exec (.hallFrameInvalid f) s = .next s.hallBad :=
  congrArg Host.Outcome.next ((if_pos running).trans (if_neg (ne_true_of_eq_false bad)))

theorem exec_hallFrameMissing (running : s.running = true) : exec .hallFrameMissing s = .next s.hallBad :=
  congrArg Host.Outcome.next (if_pos running)

theorem exec_hallLinkUp_due (running : s.running = true) (valid : hallFrameOk f = true) (link : s.hli.link = .aligning)
    (run : s.hli.validRun = 31) : exec (.hallLinkUp f) s = .next (s.hallValid f) :=
  congrArg Host.Outcome.next (if_pos (by simp [State.hallAboutUp, running, valid, link, run, Config.hallUpRun]))

theorem exec_hallLinkUp_early (early : s.hli.validRun + 1 < 32) : exec (.hallLinkUp f) s = .next s :=
  congrArg Host.Outcome.next (if_neg (by simp [State.hallAboutUp, Config.hallUpRun, early.ne]))

theorem exec_hallAlignFail_due (running : s.running = true) (link : s.hli.link = .aligning) (run : s.hli.badRun = 7) :
    exec .hallAlignFail s = .next s.hallBad :=
  congrArg Host.Outcome.next (if_pos (by simp [State.hallAboutDown, running, link, run, Config.badRunLimit]))

theorem exec_hallAlignFail_early (early : s.hli.badRun + 1 < 8) : exec .hallAlignFail s = .next s :=
  congrArg Host.Outcome.next (if_neg (by simp [State.hallAboutDown, Config.badRunLimit, early.ne]))

theorem exec_hallLinkLost_due (running : s.running = true) (link : s.hli.link = .up) (run : s.hli.badRun = 7) :
    exec .hallLinkLost s = .next s.hallBad :=
  congrArg Host.Outcome.next (if_pos (by simp [State.hallAboutDown, running, link, run, Config.badRunLimit]))

/-! ### A valid frame, by the state of the link (R164) -/

theorem State.hallValid_down (link : s.hli.link = .down) : s.hallValid f
    = { s with hli := { s.hli with link := .aligning, validRun := 1, badRun := 0, lastFrame := some (byteAt f 1) } } := by
  simp only [State.hallValid, link]
  rfl

/-- A valid frame while ALIGNING counts, and the 32nd in a row brings the link UP. -/
theorem State.hallValid_counts (link : s.hli.link = .aligning) : s.hallValid f = if 32 ≤ s.hli.validRun + 1 then
      s.modHli fun h => { h with link := .up, validRun := 32, badRun := 0, lastFrame := some (byteAt f 1), assembly := none }
    else s.modHli fun h => { h with validRun := h.validRun + 1, badRun := 0, lastFrame := some (byteAt f 1) } := by
  simp only [State.hallValid, link]
  rfl

theorem State.hallValid_aligning (link : s.hli.link = .aligning) (early : s.hli.validRun + 1 < 32) : s.hallValid f
    = { s with hli := { s.hli with validRun := s.hli.validRun + 1, badRun := 0, lastFrame := some (byteAt f 1) } } :=
  (State.hallValid_counts link).trans (if_neg (not_le.mpr early))

theorem State.hallValid_aligned (link : s.hli.link = .aligning) (run : s.hli.validRun = 31) : s.hallValid f
    = { s with hli := { s.hli with link := .up, validRun := 32, badRun := 0, lastFrame := some (byteAt f 1), assembly := none } } :=
  (State.hallValid_counts link).trans (if_pos (by rw [run]))

/-! ### A bad frame time, by the state of the link (R164, R167) -/

/-- A bad frame time while ALIGNING counts, and the 8th in a row ends the alignment. -/
theorem State.hallBad_counts (link : s.hli.link = .aligning) : s.hallBad = if 8 ≤ s.hli.badRun + 1 then
      s.modHli fun h => { h with link := .down, validRun := 0, badRun := 8, lastFrame := none }
    else s.modHli fun h => { h with validRun := 0, badRun := h.badRun + 1 } := by
  simp only [State.hallBad, link]
  rfl

theorem State.hallBad_aligning (link : s.hli.link = .aligning) (early : s.hli.badRun + 1 < 8) :
    s.hallBad = { s with hli := { s.hli with validRun := 0, badRun := s.hli.badRun + 1 } } :=
  (State.hallBad_counts link).trans (if_neg (not_le.mpr early))

theorem State.hallBad_alignFails (link : s.hli.link = .aligning) (run : s.hli.badRun = 7) :
    s.hallBad = { s with hli := { s.hli with link := .down, validRun := 0, badRun := 8, lastFrame := none } } :=
  (State.hallBad_counts link).trans (if_pos (by rw [run]))

/-- An assembly in progress is dropped with LANE_ERROR; without one there is nothing to drop (R167). -/
theorem State.breakAssembly_eq (s : State) : s.breakAssembly = { s with
    hli := { s.hli with assembly := none }
    mge := { s.mge with flags := if s.hli.assembly.isSome then flagsSet .laneError s.mge.flags else s.mge.flags } } := by
  unfold State.breakAssembly
  split
  · rfl
  · rename_i nothing
    rw [Option.not_isSome_iff_eq_none] at nothing
    rw [← nothing]

/-- A bad frame time while UP drops the assembly, and the 8th in a row loses the link. -/
theorem State.hallBad_breaks (link : s.hli.link = .up) : s.hallBad = if 8 ≤ s.hli.badRun + 1 then s.breakAssembly.hallLost
    else s.breakAssembly.modHli fun h => { h with badRun := h.badRun + 1 } := by
  simp only [State.hallBad, link]
  rfl

theorem State.hallBad_up (link : s.hli.link = .up) (early : s.hli.badRun + 1 < 8) : s.hallBad = { s with
    hli := { s.hli with badRun := s.hli.badRun + 1, assembly := none }
    mge := { s.mge with flags := if s.hli.assembly.isSome then flagsSet .laneError s.mge.flags else s.mge.flags } } := by
  rw [State.hallBad_breaks link, if_neg (not_le.mpr early), State.breakAssembly_eq]
  rfl

theorem State.hallBad_lost (link : s.hli.link = .up) (run : s.hli.badRun = 7) : s.hallBad = s.breakAssembly.hallLost :=
  (State.hallBad_breaks link).trans (if_pos (by rw [run]))

end

/-! ### What the loss of the link keeps of MGE (R173, R186) -/

/-- Every flag that is set stays set, and the count of lost notices, held to 255, does not fall. -/
def Mge.keepsLosses (m m' : Mge) : Prop :=
  (∀ g, flagsHas g m.flags = true → flagsHas g m'.flags = true) ∧ min 255 m.noticesLost ≤ m'.noticesLost

theorem Mge.keepsLosses_refl (m : Mge) : m.keepsLosses m := ⟨fun _ => id, min_le_right _ _⟩

theorem Mge.keepsLosses_trans {a b c : Mge} (h : a.keepsLosses b) (h' : b.keepsLosses c) : a.keepsLosses c := by
  obtain ⟨flags, lost⟩ := h
  obtain ⟨flags', lost'⟩ := h'
  exact ⟨fun g set => flags' g (flags g set), (le_min (min_le_left _ _) lost).trans lost'⟩

section
variable (s : State)

theorem State.setFlag_keepsLosses (g : Flag) : s.mge.keepsLosses (s.setFlag g).mge := ⟨fun _ => flagsHas_mono, min_le_right _ _⟩

theorem State.notify_keepsLosses (n : Notice) : s.mge.keepsLosses (s.notify n).mge := by
  refine ⟨fun g => State.notices_hasFlag [n], ?_⟩
  unfold State.notify
  split_ifs
  · exact min_le_right _ _
  · exact min_le_min_left 255 (Nat.le_succ _)
  · exact min_le_right _ _

theorem State.fallback_keepsLosses : s.mge.keepsLosses s.fallback.mge := by
  by_cases held : s.far.claimed = true ∨ s.far.forceReturn = true
  · have told := State.notify_keepsLosses { s with far := { s.far with claimed := false, forceReturn := false } } (.listControl false s.far.holder false)
    rw [State.fallback_held held]
    exact told
  · have same : s.fallback = s := if_neg held
    rw [same]
    exact s.mge.keepsLosses_refl

/-- FALLBACK is set when an ATTENDED engine becomes UNATTENDED (R177). -/
theorem State.unattend_setsFallback {s : State} (attended : s.hli.attended = true) :
    (s.setFlag .fallback).mge.keepsLosses s.unattend.mge := by
  have told := State.fallback_keepsLosses { s with
    hli := { s.hli with attended := false, silenceTimer := none }
    mge := { s.mge with flags := flagsSet .fallback s.mge.flags } }
  rw [State.unattend_attended attended]
  exact told

theorem State.unattend_keepsLosses : s.mge.keepsLosses s.unattend.mge := by
  by_cases attended : s.hli.attended = true
  · exact Mge.keepsLosses_trans (s.setFlag_keepsLosses .fallback) (State.unattend_setsFallback attended)
  · have same : s.unattend = s := if_neg attended
    rw [same]
    exact s.mge.keepsLosses_refl

theorem State.abandonLane_keepsLosses : s.mge.keepsLosses s.abandonLane.mge := by
  unfold State.abandonLane
  dsimp only
  split
  · exact ⟨fun _ => flagsHas_mono, min_le_min_left 255 (Nat.le_add_right _ _)⟩
  · exact s.mge.keepsLosses_refl
  · exact s.mge.keepsLosses_refl

/-- The notices of a packet cut off are counted lost (R178). -/
theorem State.abandonLane_notices {s : State} {count sent : Nat} {bytes : List Byte} (lane : s.hli.laneSender = some ⟨.notices count, bytes, sent⟩) :
    flagsHas .noticeLost s.abandonLane.mge.flags = true ∧ s.abandonLane.mge.noticesLost = min 255 (s.mge.noticesLost + count) := by
  simp only [State.abandonLane, lane]
  exact ⟨flagsHas_set _ _, rfl⟩

/-! ### What the loss of the link changes besides (R133, R177, R178) -/

/-- A notice changes the notice queue and MGE alone. -/
theorem State.notify_changes (n : Notice) : ∃ q m, s.notify n = { s with hli := { s.hli with noticeQueue := q }, mge := m } := by
  unfold State.notify
  split_ifs <;> exact ⟨_, _, rfl⟩

theorem State.fallback_changes : ∃ q m, s.fallback = { s with
    hli := { s.hli with noticeQueue := q }
    mge := m
    far := { s.far with claimed := false, forceReturn := false } } := by
  by_cases held : s.far.claimed = true ∨ s.far.forceReturn = true
  · rw [State.fallback_held held]
    exact State.notify_changes _ _
  · have same : s.fallback = s := if_neg held
    obtain ⟨claim, force⟩ := not_or.mp held
    have far : s.far = { s.far with claimed := false, forceReturn := false } :=
      congrArg₂ (fun a b => { s.far with claimed := a, forceReturn := b }) (Bool.eq_false_of_not_eq_true claim) (Bool.eq_false_of_not_eq_true force)
    exact ⟨_, _, same.trans (congrArg (fun far => { s with far := far }) far)⟩

theorem State.unattend_changes : ∃ q m, s.unattend = { s with
    hli := { s.hli with attended := false, silenceTimer := if s.hli.attended then none else s.hli.silenceTimer, noticeQueue := q }
    mge := m
    far := if s.hli.attended then { s.far with claimed := false, forceReturn := false } else s.far } := by
  by_cases attended : s.hli.attended = true
  · rw [State.unattend_attended attended, if_pos attended, if_pos attended]
    exact State.fallback_changes _
  · have same : s.unattend = s := if_neg attended
    rw [same, if_neg attended, if_neg attended]
    exact ⟨_, _, congrArg (fun a => { s with hli := { s.hli with attended := a } }) (Bool.eq_false_of_not_eq_true attended)⟩

theorem State.abandonLane_changes : ∃ m, s.abandonLane = { s with hli := { s.hli with laneSender := none }, mge := m } := by
  unfold State.abandonLane
  dsimp only
  split <;> exact ⟨_, rfl⟩

/-! ### From UP to DOWN (R178) -/

/-- The state in which the loss of the link goes on to the engine's attendance: DOWN, and no packet on the lane. -/
def State.linkDropped (s : State) : State :=
  State.abandonLane (s.modHli fun h => { h with link := .down, lastFrame := none, badRun := Config.badRunLimit })

theorem State.hallLost_eq : s.hallLost = s.linkDropped.unattend := rfl

theorem State.linkDropped_keepsLosses : s.mge.keepsLosses s.linkDropped.mge := State.abandonLane_keepsLosses (s.modHli _)

theorem State.hallLost_keepsLosses : s.mge.keepsLosses s.hallLost.mge :=
  Mge.keepsLosses_trans s.linkDropped_keepsLosses (State.unattend_keepsLosses _)

theorem State.linkDropped_changes : ∃ m, s.linkDropped = { s with
    hli := { s.hli with link := .down, lastFrame := none, badRun := 8, laneSender := none }, mge := m } :=
  State.abandonLane_changes (s.modHli _)

/-- UP to DOWN: no packet on the lane, UNATTENDED, the list-control fallback; the rest of the state stays but for the notice queue and MGE. -/
theorem State.hallLost_changes : ∃ q m, s.hallLost = { s with
    hli := { s.hli with
      link := .down
      lastFrame := none
      badRun := 8
      laneSender := none
      attended := false
      silenceTimer := if s.hli.attended then none else s.hli.silenceTimer
      noticeQueue := q }
    mge := m
    far := if s.hli.attended then { s.far with claimed := false, forceReturn := false } else s.far } := by
  obtain ⟨m, lane⟩ := s.linkDropped_changes
  rw [State.hallLost_eq, lane]
  exact State.unattend_changes _

variable {s}

theorem State.hallLost_fallback (attended : s.hli.attended = true) : flagsHas .fallback s.hallLost.mge.flags = true := by
  have still : s.linkDropped.hli.attended = true := by
    obtain ⟨m, lane⟩ := s.linkDropped_changes
    rw [lane]
    exact attended
  obtain ⟨flags, -⟩ := State.unattend_setsFallback still
  exact flags .fallback (flagsHas_set _ _)

theorem State.hallLost_notices {count sent : Nat} {bytes : List Byte} (lane : s.hli.laneSender = some ⟨.notices count, bytes, sent⟩) :
    flagsHas .noticeLost s.hallLost.mge.flags = true ∧ min 255 (s.mge.noticesLost + count) ≤ s.hallLost.mge.noticesLost := by
  obtain ⟨flag, counted⟩ : flagsHas .noticeLost s.linkDropped.mge.flags = true
      ∧ s.linkDropped.mge.noticesLost = min 255 (s.mge.noticesLost + count) := State.abandonLane_notices (s := s.modHli _) lane
  obtain ⟨flags, lost⟩ := State.unattend_keepsLosses s.linkDropped
  exact ⟨flags .noticeLost flag, (le_min (min_le_left _ _) counted.ge).trans lost⟩

end

end Sys2Proof.Machine

namespace Sys2Proof.Proofs

open Sys2Proof.Machine

/-- Settles O8: by the state of the link, and by the run a frame time completes or only adds to. -/
theorem hallLinkFollowsFrameRuns : Obligations.HallLinkFollowsFrameRuns := by
  unfold Obligations.HallLinkFollowsFrameRuns
  refine ⟨fun s f running valid link => ?_, fun s f running valid link early => ⟨?_, ?_⟩, fun s f running valid link run => ?_,
    fun s f running bad link early => ?_, fun s f running bad link run => ?_, fun s f running bad link early => ?_⟩
  · exact (exec_hallFrameValid running valid).trans (congrArg _ (State.hallValid_down link))
  · exact exec_hallLinkUp_early early
  · exact (exec_hallFrameValid running valid).trans (congrArg _ (State.hallValid_aligning link early))
  · rw [exec_hallLinkUp_due running valid link run, exec_hallFrameValid running valid]
    exact ⟨congrArg _ (State.hallValid_aligned link run), rfl⟩
  · rw [exec_hallAlignFail_early early, exec_hallFrameMissing running, exec_hallFrameInvalid running bad]
    exact ⟨rfl, congrArg _ (State.hallBad_aligning link early), rfl⟩
  · rw [exec_hallAlignFail_due running link run, exec_hallFrameMissing running, exec_hallFrameInvalid running bad]
    exact ⟨congrArg _ (State.hallBad_alignFails link run), rfl, rfl⟩
  · rw [exec_hallFrameMissing running, exec_hallFrameInvalid running bad]
    exact ⟨congrArg _ (State.hallBad_up link early), rfl⟩

/-- Settles O9: the assembly is broken first, then the link lost, with the notices on the lane and the attendance of the engine. -/
theorem hallLinkLossUnattendsEngine : Obligations.HallLinkLossUnattendsEngine := by
  unfold Obligations.HallLinkLossUnattendsEngine
  intro s running link run
  have lost := State.hallBad_lost link run
  refine ⟨s.breakAssembly.hallLost, (exec_hallLinkLost_due running link run).trans (congrArg _ lost),
    (exec_hallFrameMissing running).trans (congrArg _ lost), ?_⟩
  have broken := s.breakAssembly_eq
  obtain ⟨flags, -⟩ := s.breakAssembly.hallLost_keepsLosses
  have fallback : s.hli.attended = true → flagsHas .fallback s.breakAssembly.hallLost.mge.flags = true := fun attended =>
    State.hallLost_fallback (by rw [broken]; exact attended)
  have laneError : s.hli.assembly ≠ none → flagsHas .laneError s.breakAssembly.hallLost.mge.flags = true := fun assembly =>
    flags .laneError (by rw [broken, if_pos (Option.isSome_iff_ne_none.mpr assembly)]; exact flagsHas_set _ _)
  have notices : ∀ count bytes sent, s.hli.laneSender = some ⟨.notices count, bytes, sent⟩ →
      flagsHas .noticeLost s.breakAssembly.hallLost.mge.flags = true
        ∧ min 255 (s.mge.noticesLost + count) ≤ s.breakAssembly.hallLost.mge.noticesLost := fun count bytes sent lane => by
    have told := State.hallLost_notices (s := s.breakAssembly) (by rw [broken]; exact lane)
    rwa [broken] at told ⊢
  obtain ⟨q, m, changes⟩ := s.breakAssembly.hallLost_changes
  refine ⟨?_, ?_, fallback, laneError, notices, ?_⟩
  · rw [changes, broken]
  · rw [changes, broken]
  · rw [changes, broken]
    exact ⟨rfl, rfl, rfl, rfl, rfl, rfl, rfl, rfl, rfl⟩

end Sys2Proof.Proofs
end

section
/-! PROOF. The downstream lane: assembly and acceptance of control packets (O10). -/

namespace Sys2Proof.Machine

section
variable {s u : State} {f b : List Byte}

/-! ### What a valid frame while UP finds and leaves (R164, R167) -/

/-- The frame number is not one above the last. -/
def State.laneGap (s : State) (f : List Byte) : Bool := s.hli.lastFrame != some (byteAt f 1 - 1)

/-- The assembly a frame's lane bytes meet: a gap has ended the one in progress. -/
def State.laneAssembly (s : State) (f : List Byte) : Option (List Byte) := if s.laneGap f then none else s.hli.assembly

/-- A gap or a packet-start mark drops an assembly. -/
def State.laneDropped (s : State) (f : List Byte) : Bool :=
  (s.laneGap f && s.hli.assembly.isSome) || (laneCount f != 0 && packetStart f && (s.laneAssembly f).isSome)

/-- The state with a valid frame counted, the given assembly in progress, and LANE_ERROR set where `dropped` says so. -/
def State.laneTaken (s : State) (f : List Byte) (dropped : Bool) (assembly : Option (List Byte)) : State := { s with
  hli := { s.hli with badRun := 0, lastFrame := some (byteAt f 1), assembly := assembly }
  mge := if dropped then { s.mge with flags := flagsSet .laneError s.mge.flags } else s.mge }

theorem State.laneTaken_batch (dropped : Bool) (assembly : Option (List Byte)) : (s.laneTaken f dropped assembly).mge.batch = s.mge.batch := by
  cases dropped <;> rfl

/-- The packet-start mark drops what a gap has not dropped already. -/
theorem State.laneTaken_breakAssembly (dropped : Bool) (assembly : Option (List Byte)) (once : dropped = true → assembly = none) :
    (s.laneTaken f dropped assembly).breakAssembly = s.laneTaken f (dropped || assembly.isSome) none := by
  rw [State.breakAssembly_eq]
  cases assembly with
  | none => cases dropped <;> rfl
  | some old =>
    have kept : dropped = false := Bool.eq_false_of_not_eq_true fun drops => nomatch once drops
    rw [kept]
    rfl

/-- A gap drops the assembly before the lane bytes are taken. -/
theorem State.hallValid_up (link : s.hli.link = .up) :
    s.hallValid f = (s.laneTaken f (s.laneGap f && s.hli.assembly.isSome) (s.laneAssembly f)).takeLane f := by
  have counts : s.hallValid f
      = ((s.checkGap (byteAt f 1)).modHli fun h => { h with badRun := 0, lastFrame := some (byteAt f 1) }).takeLane f := by
    simp only [State.hallValid, link]
  rw [counts]
  by_cases next : s.hli.lastFrame = some (byteAt f 1 - 1)
  · have gap : s.laneGap f = false := bne_eq_false_iff_eq.mpr next
    rw [State.checkGap, if_pos next, State.laneAssembly, gap]
    rfl
  · have gap : s.laneGap f = true := bne_iff_ne.mpr next
    rw [State.checkGap, if_neg next, State.laneAssembly, gap, State.breakAssembly_eq]
    cases s.hli.assembly <;> rfl

theorem State.laneDropped_unmarked (unmarked : laneCount f = 0 ∨ packetStart f = false ∨ s.laneAssembly f = none) :
    s.laneDropped f = (s.laneGap f && s.hli.assembly.isSome) := by
  unfold State.laneDropped
  rcases unmarked with empty | noMark | nothing
  · simp [empty]
  · simp [noMark]
  · simp [nothing]

/-- A frame without lane bytes only counts. -/
theorem State.hallValid_empty (link : s.hli.link = .up) (empty : laneCount f = 0) :
    s.hallValid f = s.laneTaken f (s.laneDropped f) (s.laneAssembly f) := by
  rw [State.hallValid_up link, State.laneDropped_unmarked (.inl empty)]
  exact if_pos empty

/-- Lane bytes of no packet are ignored. -/
theorem State.hallValid_ignored (link : s.hli.link = .up) (lane : laneCount f ≠ 0) (noMark : packetStart f = false)
    (nothing : s.laneAssembly f = none) : s.hallValid f = s.laneTaken f (s.laneDropped f) none := by
  rw [State.hallValid_up link, State.laneDropped_unmarked (.inr (.inl noMark)), nothing, State.takeLane, if_neg lane, noMark]
  rfl

/-- A packet-start mark begins a packet. -/
theorem State.hallValid_starts (link : s.hli.link = .up) (lane : laneCount f ≠ 0) (mark : packetStart f = true) :
    s.hallValid f = (s.laneTaken f (s.laneDropped f) none).assembled (laneBytes f) := by
  have once : (s.laneGap f && s.hli.assembly.isSome) = true → s.laneAssembly f = none := fun drops =>
    if_pos (Bool.and_eq_true_iff.mp drops).1
  have drops : s.laneDropped f = ((s.laneGap f && s.hli.assembly.isSome) || (s.laneAssembly f).isSome) := by
    rw [State.laneDropped, mark, bne_iff_ne.mpr lane, Bool.and_self, Bool.true_and]
  rw [State.hallValid_up link, State.takeLane, if_neg lane, if_pos mark, State.laneTaken_breakAssembly _ _ once, drops]

/-- Lane bytes join the packet in progress. -/
theorem State.hallValid_joins {old : List Byte} (link : s.hli.link = .up) (lane : laneCount f ≠ 0) (noMark : packetStart f = false)
    (assembly : s.laneAssembly f = some old) :
    s.hallValid f = (s.laneTaken f (s.laneDropped f) (some old)).assembled (old ++ laneBytes f) := by
  rw [State.hallValid_up link, State.laneDropped_unmarked (.inr (.inl noMark)), assembly, State.takeLane, if_neg lane, noMark]
  rfl

/-! ### The bytes assembled (R167) -/

theorem State.assembled_short (short : b.length < 2) : u.assembled b = { u with hli := { u.hli with assembly := some b } } := if_pos short

theorem State.assembled_badLength (length : 2 ≤ b.length) (bad : packetLength b < 6 ∨ 256 < packetLength b) : u.assembled b = { u with
    hli := { u.hli with assembly := none }
    mge := { u.mge with flags := flagsSet .laneError u.mge.flags } } :=
  (if_neg (not_lt.mpr length)).trans (if_pos bad)

theorem State.assembled_announced (length : 2 ≤ b.length) (low : 6 ≤ packetLength b) (high : packetLength b ≤ 256) :
    u.assembled b = if packetLength b ≤ b.length then
        State.acceptPacket (b.take (packetLength b)) { u with hli := { u.hli with assembly := none } }
      else { u with hli := { u.hli with assembly := some b } } :=
  (if_neg (not_lt.mpr length)).trans (if_neg (not_or.mpr ⟨not_lt.mpr low, not_lt.mpr high⟩))

/-! ### Acceptance (R168, R169, R172, R177) -/

theorem State.acceptPacket_crcError {p : List Byte} (crc : packetCrcOk p = false) :
    u.acceptPacket p = { u with mge := { u.mge with flags := flagsSet .laneError u.mge.flags } } :=
  if_neg (ne_true_of_eq_false crc)

theorem State.acceptPacket_overrun {p : List Byte} (crc : packetCrcOk p = true) (full : 4 ≤ u.hli.replyQueue.length) : u.acceptPacket p = { u with
    hli := { u.hli with attended := true, silenceTimer := some 0 }
    mge := { u.mge with flags := flagsSet .laneOverrun u.mge.flags } } :=
  (if_pos crc).trans (if_neg (not_lt.mpr full))

theorem State.acceptPacket_takesPlace {p : List Byte} (crc : packetCrcOk p = true) (room : u.hli.replyQueue.length < 4) :
    u.acceptPacket p = State.takePlace (placeOfPacket p) { u with hli := { u.hli with attended := true, silenceTimer := some 0 } } :=
  (if_pos crc).trans (if_pos room)

/-- The end of a handling leaves the reply queue as it is (R169). -/
theorem State.settle_replyQueue (s : State) : s.settle.hli.replyQueue = s.hli.replyQueue := by
  obtain ⟨replies, -⟩ := Moves.frame s.settle_moves
  exact replies

theorem State.takePlace_ends {p : Place} (batch : s.mge.batch ≠ none) (record : s.nextRecord = none) (waits : p.waiting ≠ []) :
    let ended := State.settle { s with mge := { s.mge with batch := none } }
    s.takePlace p = { ended with hli := { ended.hli with replyQueue := s.hli.replyQueue ++ [p] } } := by
  intro ended
  have replies : ended.hli.replyQueue = s.hli.replyQueue := State.settle_replyQueue _
  rw [State.takePlace_end batch record waits, ← replies]
  rfl

end

end Sys2Proof.Machine

namespace Sys2Proof.Proofs

open Sys2Proof.Machine

/-- Settles O10: the frame is counted with the assembly it leaves, and the bytes that are then assembled decide the rest. -/
theorem laneAcceptsCompletedPacket : Obligations.LaneAcceptsCompletedPacket := by
  unfold Obligations.LaneAcceptsCompletedPacket
  intro s f running valid link gap old dropped m h frame
  have frames : ∀ {u : State}, s.hallValid f = u → frame = .next u := fun same => (exec_hallFrameValid running valid).trans (congrArg _ same)
  refine ⟨fun empty => frames (State.hallValid_empty link empty), fun lane noMark nothing => frames (State.hallValid_ignored link lane noMark nothing),
    fun b lane bytes => ?_⟩
  obtain ⟨a, assembles⟩ : ∃ a, s.hallValid f = (s.laneTaken f dropped a).assembled b := by
    rcases bytes with ⟨mark, rfl⟩ | ⟨noMark, o, assembly, rfl⟩
    · exact ⟨none, State.hallValid_starts link lane mark⟩
    · exact ⟨some o, State.hallValid_joins link lane noMark assembly⟩
  refine ⟨fun short => frames (assembles.trans (State.assembled_short short)),
    fun length bad => frames (assembles.trans (State.assembled_badLength length bad)), fun length low high partly => ?_,
    fun length low high complete => ?_⟩
  · exact frames ((assembles.trans (State.assembled_announced length low high)).trans (if_neg (not_le.mpr partly)))
  · intro p a' place
    have accepts : s.hallValid f = (s.laneTaken f dropped none).acceptPacket p :=
      (assembles.trans (State.assembled_announced length low high)).trans (if_pos complete)
    have batch : a'.mge.batch = s.mge.batch := State.laneTaken_batch (f := f) dropped none
    refine ⟨fun crc room keeps => ?_, fun crc room opened record waits => ?_, fun crc full => ?_, fun crc => ?_⟩
    · exact frames ((accepts.trans (State.acceptPacket_takesPlace crc room)).trans (State.takePlace_keep (s := a') (by rwa [batch])))
    · exact frames ((accepts.trans (State.acceptPacket_takesPlace crc room)).trans (State.takePlace_ends (s := a') (by rwa [batch]) record waits))
    · exact frames (accepts.trans (State.acceptPacket_overrun crc full))
    · exact frames (accepts.trans (State.acceptPacket_crcError crc))

end Sys2Proof.Proofs
end

section
/-! PROOF. The upstream hall frame and the lane it carries (O11). -/

namespace Sys2Proof.Machine

/-! ### The upstream frame, byte by byte (R166, chapter 11.3) -/

theorem samples_length (samples : List Int) : (samples.flatMap s16).length = 2 * samples.length := by
  induction samples with
  | nil => rfl
  | cons x l ih =>
    rw [List.flatMap_cons, List.length_append, ih, List.length_cons]
    exact (Nat.add_comm 2 _).trans (Nat.mul_succ 2 _).symm

/-- The control byte carries the attention mark in bit 7 and the attendance in bit 6. -/
theorem control_marks (attention attended start : Bool) {n : Nat} (lane : n ≤ 4) :
    let control : Byte := BitVec.ofNat 8 ((if attention then 128 else 0) + (if attended then 64 else 0) + (if start then 32 else 0) + n)
    control.getLsbD 7 = attention ∧ control.getLsbD 6 = attended := by
  have all : ∀ (attention attended start : Bool) (n : Fin 5),
      let control : Byte := BitVec.ofNat 8 ((if attention then 128 else 0) + (if attended then 64 else 0) + (if start then 32 else 0) + n.val)
      control.getLsbD 7 = attention ∧ control.getLsbD 6 = attended := by decide
  exact all attention attended start ⟨n, Nat.lt_succ_of_le lane⟩

/-- A frame is its start byte, a body of 32 bytes and the check of the body; the mix sample ends the body. -/
theorem hallFrame_layout (number : Byte) (attention attended start : Bool) {lane : List Byte} {samples : List Int} (mix : Int)
    (fits : lane.length ≤ 4) (slots : samples.length = 12) : ∃ (control : Byte) (content : List Byte),
      hallFrame number attention attended start lane samples mix
        = 0x3C :: number :: control :: (content ++ s16 mix ++ [crc8 (number :: control :: (content ++ s16 mix))])
      ∧ content.length = 28 ∧ control.getLsbD 7 = attention ∧ control.getLsbD 6 = attended := by
  refine ⟨_, lane ++ List.replicate (4 - lane.length) 0 ++ samples.flatMap s16, rfl, ?_, control_marks attention attended start fits⟩
  simp only [List.length_append, List.length_replicate, samples_length, slots]
  omega

theorem hallFrame_spec (number : Byte) (attention attended start : Bool) {lane : List Byte} {samples : List Int} (mix : Int)
    (fits : lane.length ≤ 4) (slots : samples.length = 12) :
    let f := hallFrame number attention attended start lane samples mix
    f.length = 34 ∧ f.getD 0 0 = 0x3C ∧ f.getD 1 0 = number ∧ (f.getD 2 0).getLsbD 7 = attention ∧ (f.getD 2 0).getLsbD 6 = attended
      ∧ (f.drop 31).take 2 = s16 mix ∧ f.getD 33 0 = crc8 ((f.drop 1).take 32) := by
  obtain ⟨control, content, frame, length, attentive, attends⟩ := hallFrame_layout number attention attended start mix fits slots
  intro f
  have sampled : (content ++ s16 mix).length = 30 := by rw [List.length_append, length]; rfl
  have body : (number :: control :: (content ++ s16 mix)).length = 32 := congrArg (· + 2) sampled
  have check : (f.drop 1).take 32 = number :: control :: (content ++ s16 mix) := by
    simp only [f, frame]
    exact List.take_left' body
  refine ⟨?_, ?_, ?_, ?_, ?_, ?_, ?_⟩
  · simp only [f, frame, List.length_cons, List.length_append, sampled, List.length_nil]
  · simp only [f, frame]
    rfl
  · simp only [f, frame]
    rfl
  · simp only [f, frame]
    exact attentive
  · simp only [f, frame]
    exact attends
  · simp only [f, frame]
    show ((content ++ s16 mix ++ _).drop 28).take 2 = s16 mix
    rw [List.append_assoc, List.drop_left' length]
    exact List.take_left' rfl
  · rw [check]
    simp only [f, frame]
    show (content ++ s16 mix ++ _).getD 30 0 = _
    rw [List.getD_append_right _ _ _ _ sampled.le, sampled]
    rfl

/-! ### The lane (R169, R175) -/

theorem packet_length (content : List Byte) : (packet content).length = content.length + 4 := by
  simp [packet, withCrc, u16, halfBytes]

theorem replyPacket_length (p : Place) : 4 < (replyPacket p).length := by
  rw [replyPacket, packet_length]
  exact Nat.lt_add_of_pos_left (Nat.succ_pos _)

theorem noticePacket_length (ns : List Notice) : 4 < (noticePacket ns).length := by
  rw [noticePacket, packet_length]
  exact Nat.lt_add_of_pos_left (Nat.succ_pos _)

section
variable {h : Hli}

/-! What a free lane begins. -/

theorem Hli.readyLane_busy {p : LaneSender} (lane : h.laneSender = some p) : h.readyLane = h := if_pos (by rw [lane]; rfl)

theorem Hli.readyLane_free (lane : h.laneSender = none) : h.readyLane = h.beginPacket := if_neg (by rw [lane]; exact Bool.false_ne_true)

theorem Place.ready_iff (p : Place) : p.ready = true ↔ p.waiting = [] := List.isEmpty_iff

/-- With no reply ready the oldest notices make up a packet, where there are any. -/
theorem Hli.beginPacket_unready (unready : ∀ p ∈ h.replyQueue, p.waiting ≠ []) : h.beginPacket
    = if h.noticeQueue.isEmpty then h else { h with
        laneSender := some ⟨.notices (h.noticeQueue.take 8).length, noticePacket (h.noticeQueue.take 8), 0⟩
        noticeQueue := h.noticeQueue.drop 8 } := by
  have unfound : h.replyQueue.findIdx? Place.ready = none :=
    List.findIdx?_eq_none_iff.mpr fun p mem => Bool.eq_false_of_not_eq_true (mt p.ready_iff.mp (unready p mem))
  rw [Hli.beginPacket, unfound]

theorem Hli.beginPacket_notices (unready : ∀ p ∈ h.replyQueue, p.waiting ≠ []) (told : h.noticeQueue ≠ []) : h.beginPacket = { h with
    laneSender := some ⟨.notices (min 8 h.noticeQueue.length), noticePacket (h.noticeQueue.take 8), 0⟩
    noticeQueue := h.noticeQueue.drop 8 } := by
  rw [Hli.beginPacket_unready unready, if_neg (mt List.isEmpty_iff.mp told), List.length_take]

/-- The oldest ready reply is begun, wherever it stands. -/
theorem Hli.beginPacket_reply {before rest : List Place} {p : Place} (replies : h.replyQueue = before ++ p :: rest)
    (unready : ∀ b ∈ before, b.waiting ≠ []) (ready : p.waiting = []) :
    h.beginPacket = { h with laneSender := some ⟨.reply before.length, replyPacket p, 0⟩ } := by
  have unfound : before.findIdx? Place.ready = none :=
    List.findIdx?_eq_none_iff.mpr fun b mem => Bool.eq_false_of_not_eq_true (mt b.ready_iff.mp (unready b mem))
  have index : h.replyQueue.findIdx? Place.ready = some before.length := by
    rw [replies, List.findIdx?_append, unfound, List.findIdx?_cons, if_pos (p.ready_iff.mpr ready)]
    simp
  have place : h.replyQueue[before.length]? = some p := by simp [replies]
  rw [Hli.beginPacket, index]
  simp only [place]

/-! What a frame carries of the packet on the lane, and what it leaves. -/

theorem Hli.sentLane_free (lane : h.laneSender = none) : h.sentLane = h := by
  simp only [Hli.sentLane, lane]

theorem Hli.sentLane_more {source : LaneSource} {bytes : List Byte} {n : Nat} (lane : h.laneSender = some ⟨source, bytes, n⟩)
    (more : n + 4 < bytes.length) : h.sentLane = { h with laneSender := some ⟨source, bytes, n + 4⟩ } := by
  simp only [Hli.sentLane, lane]
  exact if_neg (not_le.mpr more)

theorem Hli.sentLane_reply {i n : Nat} {bytes : List Byte} (lane : h.laneSender = some ⟨.reply i, bytes, n⟩) (last : bytes.length ≤ n + 4) :
    h.sentLane = { h with laneSender := none, replyQueue := h.replyQueue.eraseIdx i } := by
  simp only [Hli.sentLane, lane]
  exact if_pos last

theorem Hli.sentLane_notices {count n : Nat} {bytes : List Byte} (lane : h.laneSender = some ⟨.notices count, bytes, n⟩)
    (last : bytes.length ≤ n + 4) : h.sentLane = { h with laneSender := none } := by
  simp only [Hli.sentLane, lane]
  exact if_pos last

theorem Hli.nextLaneBytes_length (h : Hli) : h.nextLaneBytes.length ≤ 4 := by
  unfold Hli.nextLaneBytes
  split
  · exact List.length_take_le _ _
  · exact Nat.zero_le _

/-! What stays of the interface (R175). -/

theorem Hli.beginPacket_changes (h : Hli) : ∃ l q, h.beginPacket = { h with laneSender := l, noticeQueue := q } := by
  unfold Hli.beginPacket
  split
  · split <;> exact ⟨_, _, rfl⟩
  · split <;> exact ⟨_, _, rfl⟩

theorem Hli.readyLane_changes (h : Hli) : ∃ l q, h.readyLane = { h with laneSender := l, noticeQueue := q } := by
  unfold Hli.readyLane
  split
  · exact ⟨_, _, rfl⟩
  · exact h.beginPacket_changes

theorem Hli.laneNow_changes (h : Hli) : ∃ l q, h.laneNow = { h with laneSender := l, noticeQueue := q } := by
  unfold Hli.laneNow
  split
  · exact h.readyLane_changes
  · exact ⟨_, _, rfl⟩

theorem Hli.sentLane_changes (h : Hli) : ∃ l r, h.sentLane = { h with laneSender := l, replyQueue := r } := by
  unfold Hli.sentLane
  split
  · split
    · split <;> exact ⟨_, _, rfl⟩
    · exact ⟨_, _, rfl⟩
  · exact ⟨_, _, rfl⟩

theorem Hli.afterFrame_changes (h : Hli) : ∃ l r, h.afterFrame = { h with upFrame := h.upFrame + 1, laneSender := l, replyQueue := r } := by
  unfold Hli.afterFrame
  dsimp only
  split
  · obtain ⟨l, r, sent⟩ := h.sentLane_changes
    rw [sent]
    exact ⟨_, _, rfl⟩
  · exact ⟨_, _, rfl⟩

end

section
variable {s : State}

/-! ### HALL_FRAME_SEND (R166) -/

theorem exec_hallFrameSend (running : s.running = true) : exec .hallFrameSend s = .next s.sendHall := congrArg Host.Outcome.next (if_pos running)

/-- The state after an upstream frame with these lane bytes, the interface as given but for the frame number. -/
def State.hallSent (s : State) (h : Hli) (start : Bool) (lane : List Byte) : State := { s with
  hli := { h with upFrame := s.hli.upFrame + 1 }
  hallOut := some (hallFrame s.hli.upFrame s.attention s.hli.attended start lane (s.fmx.chans.toList.map FmxChan.slotSample) s.fmx.mixSample) }

theorem State.sendHall_down (link : s.hli.link ≠ .up) : s.sendHall = s.hallSent s.hli false [] := by
  have now : s.hli.laneNow = s.hli := if_neg link
  rw [State.sendHall, now, State.upstreamFrame, Hli.afterFrame, if_neg link, if_neg link, decide_eq_false link, Bool.false_and]
  rfl

/-- While UP the frame carries the next bytes of the packet the lane is made ready with. -/
theorem State.sendHall_up (link : s.hli.link = .up) :
    s.sendHall = s.hallSent s.hli.readyLane.sentLane s.hli.readyLane.startsPacket s.hli.readyLane.nextLaneBytes := by
  have now : s.hli.laneNow = s.hli.readyLane := if_pos link
  obtain ⟨l, q, ready⟩ := s.hli.readyLane_changes
  have up : s.hli.readyLane.link = .up := by rw [ready]; exact link
  have number : s.hli.readyLane.upFrame = s.hli.upFrame := by rw [ready]
  have attended : s.hli.readyLane.attended = s.hli.attended := by rw [ready]
  rw [State.sendHall, now, State.upstreamFrame, Hli.afterFrame, if_pos up, if_pos up, decide_eq_true up, Bool.true_and, number, attended]
  rfl

/-- With nothing on the lane and nothing to begin the frame carries no lane byte. -/
theorem State.sendHall_idle (link : s.hli.link = .up) (lane : s.hli.laneSender = none) (unready : ∀ p ∈ s.hli.replyQueue, p.waiting ≠ [])
    (quiet : s.hli.noticeQueue = []) : s.sendHall = s.hallSent s.hli false [] := by
  have ready : s.hli.readyLane = s.hli := by
    rw [Hli.readyLane_free lane, Hli.beginPacket_unready unready, quiet]
    rfl
  rw [State.sendHall_up link, ready, Hli.sentLane_free lane]
  simp only [Hli.startsPacket, Hli.nextLaneBytes, lane]

/-- With a packet on the lane the frame carries its next four bytes, the first with the packet-start mark. -/
theorem State.sendHall_packet {now h : Hli} {source : LaneSource} {bytes : List Byte} {n : Nat} (link : s.hli.link = .up)
    (ready : s.hli.readyLane = now) (lane : now.laneSender = some ⟨source, bytes, n⟩) (sent : now.sentLane = h) :
    s.sendHall = s.hallSent h (n == 0) ((bytes.drop n).take 4) := by
  rw [State.sendHall_up link, ready, sent]
  simp only [Hli.startsPacket, Hli.nextLaneBytes, lane]

end

end Sys2Proof.Machine

namespace Sys2Proof.Proofs

open Sys2Proof.Machine

/-- Settles O11: the layout of the frame, then what the lane begins or goes on with. -/
theorem hallFrameSendBuildsFrame : Obligations.HallFrameSendBuildsFrame := by
  unfold Obligations.HallFrameSendBuildsFrame
  refine ⟨fun s running => ?_, fun s running => ?_⟩
  · obtain ⟨l, q, now⟩ := s.hli.laneNow_changes
    obtain ⟨l', r, after⟩ := s.hli.laneNow.afterFrame_changes
    have fits : (if s.hli.laneNow.link = .up then s.hli.laneNow.nextLaneBytes else []).length ≤ 4 := by
      split
      · exact Hli.nextLaneBytes_length _
      · exact Nat.zero_le _
    have slots : (s.fmx.chans.toList.map FmxChan.slotSample).length = 12 := by simp
    obtain ⟨length, start, number, attention, attended, mix, check⟩ := hallFrame_spec s.hli.laneNow.upFrame s.attention s.hli.laneNow.attended
      (s.hli.laneNow.link = .up && s.hli.laneNow.startsPacket) s.fmx.mixSample fits slots
    refine ⟨_, _, exec_hallFrameSend running, length, start, number.trans ?_, attention, attended.trans ?_, mix, check, ?_⟩
    · rw [now]
    · rw [now]
    · rw [after, now]
  · intro sends
    have sent : ∀ {h : Hli} {start : Bool} {lane : List Byte}, s.sendHall = s.hallSent h start lane → sends h start lane := fun same =>
      (exec_hallFrameSend running).trans (congrArg _ same)
    refine ⟨fun idle => ?_, fun before p rest link lane replies unready ready => ?_, fun link lane unready told => ?_,
      fun source bytes n link lane more => ?_, fun i bytes n link lane last => ?_, fun count bytes n link lane last => ?_⟩
    · by_cases link : s.hli.link = .up
      · obtain ⟨lane, unready, quiet⟩ := idle.resolve_left (not_not.mpr link)
        exact sent (State.sendHall_idle link lane unready quiet)
      · exact sent (State.sendHall_down link)
    · refine sent (State.sendHall_packet link ((Hli.readyLane_free lane).trans (Hli.beginPacket_reply replies unready ready)) rfl ?_)
      exact Hli.sentLane_more rfl (by simpa using replyPacket_length p)
    · intro packet
      refine sent (State.sendHall_packet link ((Hli.readyLane_free lane).trans (Hli.beginPacket_notices unready told)) rfl ?_)
      exact Hli.sentLane_more rfl (by simpa using noticePacket_length (s.hli.noticeQueue.take 8))
    · exact sent (State.sendHall_packet link (Hli.readyLane_busy lane) lane (Hli.sentLane_more lane more))
    · exact sent (State.sendHall_packet link (Hli.readyLane_busy lane) lane (Hli.sentLane_reply lane last))
    · exact sent (State.sendHall_packet link (Hli.readyLane_busy lane) lane (Hli.sentLane_notices lane last))

end Sys2Proof.Proofs
end

section
/-! PROOF. The notice mask and the report mask of SET_NOTICES and SET_REPORT (O53). -/

namespace Sys2Proof.Machine

/-! ### Masks of 14 enables in code order (R174, R188) -/

theorem enable_getLsbD (b : Byte) (i : Nat) : (if b = 1 then 1#14 else 0#14).getLsbD i = (decide (i = 0) && b == 1) := by
  by_cases on : b = 1
  · rw [if_pos on, beq_iff_eq.mpr on, Bool.and_true]
    exact BitVec.getLsbD_one.trans (by simp)
  · rw [if_neg on, beq_eq_false_iff_ne.mpr on, Bool.and_false, BitVec.getLsbD_zero]

/-- Bit `i` of the word built from enables is enable `i`. -/
theorem enables_word_getLsbD (l : List Byte) {i : Nat} (width : i < 14) :
    (l.foldr (fun b (w : BitVec 14) => (w <<< 1) ||| (if b = 1 then 1#14 else 0#14)) 0#14).getLsbD i = (l.getD i 0 == 1) := by
  induction l generalizing i with
  | nil => simp
  | cons b l ih =>
    rw [List.foldr_cons, BitVec.getLsbD_or, BitVec.getLsbD_shiftLeft, enable_getLsbD]
    cases i with
    | zero => simp
    | succ i =>
      rw [List.getD_cons_succ, ← ih (Nat.lt_of_succ_lt width)]
      simp [width]

/-- An enable is a code of on/off, 0 or 1 (R193). -/
theorem boolOfCode_isSome_iff (b : Byte) : (boolOfCode b).isSome = true ↔ b = 0 ∨ b = 1 := by
  unfold boolOfCode
  split_ifs with off on
  · exact iff_of_true rfl (.inl off)
  · exact iff_of_true rfl (.inr on)
  · exact iff_of_false Bool.false_ne_true (not_or.mpr ⟨off, on⟩)

section
variable {enables : Vector Byte 14} {mask : BitVec 14}

theorem enables_defined_iff (enables : Vector Byte 14) :
    (enables.toList.all fun b => (boolOfCode b).isSome) = true ↔ ¬ ∃ i : Fin 14, enables[i] ≠ 0 ∧ enables[i] ≠ 1 := by
  simp only [List.all_eq_true, boolOfCode_isSome_iff, Vector.mem_toList_iff, Vector.mem_iff_getElem, not_exists, not_and_or, not_not]
  exact ⟨fun h i => h _ ⟨i, i.isLt, rfl⟩, fun h b ⟨i, lt, get⟩ => get ▸ h ⟨i, lt⟩⟩

theorem maskOfEnables_undefined (undefined : ∃ i : Fin 14, enables[i] ≠ 0 ∧ enables[i] ≠ 1) : maskOfEnables enables = none :=
  if_neg fun defined => (enables_defined_iff enables).mp defined undefined

theorem maskOfEnables_defined (bits : ∀ i : Fin 14, mask.getLsbD i = (enables[i] == 1))
    (defined : ¬ ∃ i : Fin 14, enables[i] ≠ 0 ∧ enables[i] ≠ 1) : maskOfEnables enables = some mask := by
  rw [maskOfEnables, if_pos ((enables_defined_iff enables).mpr defined), List.foldl_reverse]
  refine congrArg some (BitVec.eq_of_getLsbD_eq fun i width => ?_)
  rw [enables_word_getLsbD _ width, bits ⟨i, width⟩]
  simp [width]

/-- A mask answers the enables it was built from (log entry 12). -/
theorem enablesOfMask_eq (bits : ∀ i : Fin 14, mask.getLsbD i = (enables[i] == 1))
    (defined : ¬ ∃ i : Fin 14, enables[i] ≠ 0 ∧ enables[i] ≠ 1) : enablesOfMask mask = enables.toList := by
  refine List.ext_getElem (by simp [enablesOfMask]) fun i length width => ?_
  rw [Vector.length_toList] at width
  have code : enables[i] = 0 ∨ enables[i] = 1 := by
    by_contra neither
    exact defined ⟨⟨i, width⟩, not_or.mp neither⟩
  have bit : mask.getLsbD i = (enables[i] == 1) := bits ⟨i, width⟩
  have field : (enablesOfMask mask)[i]'length = if enables[i] == 1 then 1 else 0 := by
    rw [← bit]
    simp only [enablesOfMask, List.getElem_map, List.getElem_finRange]
    rfl
  rw [field, Vector.getElem_toList]
  rcases code with off | on
  · rw [off]
    rfl
  · rw [on]
    rfl

/-! ### SET_NOTICES and SET_REPORT -/

theorem setNoticesBody_badField (undefined : maskOfEnables enables = none) (s : State) : setNoticesBody enables s = Answer.refuse .badField s := by
  rw [setNoticesBody, undefined]

theorem setNoticesBody_sets (defined : maskOfEnables enables = some mask) (s : State) :
    setNoticesBody enables s = ⟨{ s with hli := { s.hli with noticeMask := mask } }, .ok, enablesOfMask mask⟩ := by
  rw [setNoticesBody, defined]
  rfl

theorem setReportBody_badField (undefined : maskOfEnables enables = none) (s : State) : setReportBody enables s = Answer.refuse .badField s := by
  rw [setReportBody, undefined]

theorem setReportBody_sets (defined : maskOfEnables enables = some mask) (s : State) :
    setReportBody enables s = ⟨{ s with mge := { s.mge with reportMask := mask } }, .ok, enablesOfMask mask⟩ := by
  rw [setReportBody, defined]
  rfl

end

end Sys2Proof.Machine

namespace Sys2Proof.Proofs

open Sys2Proof.Machine

/-- Settles O53: the mask is the word built from the enables, and it answers them. -/
theorem masksTakeTheirEnables : Obligations.MasksTakeTheirEnables := by
  unfold Obligations.MasksTakeTheirEnables
  intro enables mask s bits bad
  refine ⟨fun takes => ⟨fun undefined => ?_, fun defined => ?_⟩, fun takes => ⟨fun undefined => ?_, fun defined => ?_⟩⟩
  · exact congrArg _ (State.runRecord_refuse takes 0x41 (setNoticesBody_badField (maskOfEnables_undefined undefined) s))
  · rw [← enablesOfMask_eq bits defined]
    exact congrArg _ (State.runRecord_answer takes 0x41 (setNoticesBody_sets (maskOfEnables_defined bits defined) s))
  · exact congrArg _ (State.runRecord_refuse takes 0x56 (setReportBody_badField (maskOfEnables_undefined undefined) s))
  · rw [← enablesOfMask_eq bits defined]
    exact congrArg _ (State.runRecord_answer takes 0x56 (setReportBody_sets (maskOfEnables_defined bits defined) s))

end Sys2Proof.Proofs
end

section
/-! PROOF. Every well-formed record command reads back from the bytes it is laid out in (O60). -/

namespace Sys2Proof

/-! ### The frame of a record (R193, R197) -/

/-- The fixed lengths fit in the length byte (table 11.5). -/
theorem recordLength_lt {kind : Byte} {len : Nat} (known : recordLength kind = some len) : len < 256 := by
  unfold recordLength at known
  split at known <;> cases known <;> decide

section
variable {kind : Byte} {len : Nat} {params : List Byte}

theorem record_length (fits : params.length + 2 ≤ len) : (record kind len params).length = len := by
  simp only [record, List.length_cons, List.length_append, List.length_replicate]
  omega

theorem record_stated_length (byte : len < 256) : (byteAt (record kind len params) 1).toNat = len :=
  (BitVec.toNat_ofNat len 8).trans (Nat.mod_eq_of_lt byte)

/-- A record of a known kind, laid out in the length of its kind, passes MGE's first checks (R170). -/
theorem record_reads {i : Instr} (known : recordLength kind = some len) (fits : (params.length + 2).ble len = true)
    (reads : decodeKnown (record kind len params) = i) :
    decodeRecord (record kind len params) = .command i
      ∧ (byteAt (record kind len params) 1).toNat = (record kind len params).length := by
  have stated := record_stated_length (kind := kind) (params := params) (recordLength_lt known)
  have length := record_length (kind := kind) (Nat.le_of_ble_eq_true fits)
  have kinds : recordLength (byteAt (record kind len params) 0) = some len := known
  refine ⟨?_, stated.trans length.symm⟩
  rw [decodeRecord, kinds]
  exact (if_pos ⟨length, stated⟩).trans (congrArg Waiting.command reads)

/-- A record of an unlisted kind is no command of the table, whatever its length (R170). -/
theorem unknown_reads (unlisted : recordLength kind = none) : decodeRecord (record14 kind []) = .command (.unknownRecord kind)
    ∧ (byteAt (record14 kind []) 1).toNat = (record14 kind []).length := by
  have kinds : recordLength (byteAt (record14 kind []) 0) = none := unlisted
  refine ⟨?_, rfl⟩
  rw [decodeRecord, kinds]
  rfl

end

/-! ### Fields (R193, R197) -/

/-- The two bytes of a field, most significant first, are the field. -/
theorem halfBytes_append (x : BitVec 16) : x.extractLsb' 8 8 ++ x.extractLsb' 0 8 = x :=
  (BitVec.extractLsb'_append_extractLsb'_eq_extractLsb' (start₁ := 0) (len₁ := 8) rfl).trans BitVec.extractLsb'_eq_self

section
variable {r : List Byte} {m bit i : Nat}

/-- A masked field reads back: its presence bit says whether it is there, its byte what it holds. -/
theorem maskedByte_eq {f : Option Byte} (mask : (byteAt r m).getLsbD bit = f.isSome) (field : byteAt r i = f.getD 0) :
    maskedByte r m bit i = f := by
  rw [maskedByte, mask, field]
  cases f <;> rfl

theorem maskedHalf_eq {f : Option (BitVec 16)} (mask : (byteAt r m).getLsbD bit = f.isSome) (high : byteAt r i = (f.getD 0).extractLsb' 8 8)
    (low : byteAt r (i + 1) = (f.getD 0).extractLsb' 0 8) : maskedHalf r m bit i = f := by
  rw [maskedHalf, mask, halfAt, high, low, halfBytes_append]
  cases f <;> rfl

end

/-- Presence bit `bit` stands alone in its byte. -/
theorem presence_getLsbD {α : Type} {bit : Nat} (width : bit < 8) (f : Option α) (j : Nat) :
    (presence bit f).getLsbD j = (decide (j = bit) && f.isSome) := by
  unfold presence
  split_ifs with present
  · rw [present, Bool.and_true, ← BitVec.twoPow_eq, BitVec.getLsbD_twoPow, decide_eq_true width, Bool.true_and]
    exact decide_eq_decide.mpr eq_comm
  · rw [Bool.not_eq_true] at present
    rw [present, Bool.and_false]
    exact BitVec.getLsbD_zero

section
variable {m : Byte} {α₀ α₁ α₂ α₃ α₄ α₅ α₆ α₇ : Type}

/-- The mask byte of four fields. -/
theorem mask4_getLsbD {f₀ : Option α₀} {f₁ : Option α₁} {f₂ : Option α₂} {f₃ : Option α₃}
    (mask : m = presence 0 f₀ ||| presence 1 f₁ ||| presence 2 f₂ ||| presence 3 f₃) :
    m.getLsbD 0 = f₀.isSome ∧ m.getLsbD 1 = f₁.isSome ∧ m.getLsbD 2 = f₂.isSome ∧ m.getLsbD 3 = f₃.isSome := by
  simp [mask, presence_getLsbD, -BitVec.getLsbD_eq_getElem]

/-- The mask byte of eight fields. -/
theorem mask8_getLsbD {f₀ : Option α₀} {f₁ : Option α₁} {f₂ : Option α₂} {f₃ : Option α₃} {f₄ : Option α₄} {f₅ : Option α₅} {f₆ : Option α₆}
    {f₇ : Option α₇} (mask : m = presence 0 f₀ ||| presence 1 f₁ ||| presence 2 f₂ ||| presence 3 f₃ ||| presence 4 f₄ ||| presence 5 f₅
      ||| presence 6 f₆ ||| presence 7 f₇) :
    m.getLsbD 0 = f₀.isSome ∧ m.getLsbD 1 = f₁.isSome ∧ m.getLsbD 2 = f₂.isSome ∧ m.getLsbD 3 = f₃.isSome ∧ m.getLsbD 4 = f₄.isSome
      ∧ m.getLsbD 5 = f₅.isSome ∧ m.getLsbD 6 = f₆.isSome ∧ m.getLsbD 7 = f₇.isSome := by
  simp [mask, presence_getLsbD, -BitVec.getLsbD_eq_getElem]

end

/-! ### Parameters (table 11.5) -/

theorem decodeLoadSeat_encode (p : LoadSeatParams) : decodeLoadSeat (encodeLoadSeat p) = p := by
  obtain ⟨first, last, enabled, cls, trim, override⟩ := p
  obtain ⟨b₀, b₁, b₂, b₃⟩ := mask4_getLsbD (m := byteAt (encodeLoadSeat ⟨first, last, enabled, cls, trim, override⟩) 2) rfl
  rw [decodeLoadSeat, LoadSeatParams.mk.injEq]
  refine ⟨halfBytes_append _, halfBytes_append _, maskedByte_eq b₀ rfl, maskedByte_eq b₁ rfl, maskedByte_eq b₂ rfl, ?_⟩
  rw [b₃]
  cases override with
  | none => rfl
  | some x => exact congrArg (fun value => some (x.1, value)) (halfBytes_append x.2)

theorem decodeSetClass_encode (p : SetClassParams) : decodeSetClass (encodeSetClass p) = p := by
  obtain ⟨b₀, b₁, b₂, b₃, b₄, b₅, b₆, b₇⟩ := mask8_getLsbD (m := byteAt (encodeSetClass p) 2) rfl
  rw [decodeSetClass, maskedByte_eq b₀ rfl, maskedByte_eq b₁ rfl, maskedByte_eq b₂ rfl, maskedHalf_eq b₃ rfl rfl, maskedByte_eq b₄ rfl,
    maskedByte_eq b₅ rfl, maskedByte_eq b₆ rfl, maskedByte_eq b₇ rfl]
  rfl

theorem decodeSetZone_encode (p : SetZoneParams) : decodeSetZone (encodeSetZone p) = p := by
  obtain ⟨b₀, b₁, b₂, b₃⟩ := mask4_getLsbD (m := byteAt (encodeSetZone p) 2) rfl
  rw [decodeSetZone, maskedByte_eq b₀ rfl, maskedHalf_eq b₁ rfl rfl, maskedHalf_eq b₂ rfl rfl, maskedByte_eq b₃ rfl]
  rfl

/-- The 30 bytes of SET_FLOOR: kind, length, three mask bytes, the settings in the order of R180, a reserved byte. -/
theorem encodeSetFloor_bytes (p : SetFloorParams) : ∃ m₂ m₃ m₄ : Byte,
    m₂ = presence 0 p.mode ||| presence 1 p.floorLimit ||| presence 2 p.chairReserve ||| presence 3 p.policy ||| presence 4 p.discipline
        ||| presence 5 p.confirm ||| presence 6 p.confirmWindow ||| presence 7 p.pressAsConfirm
      ∧ m₃ = presence 0 p.secondPressCancels ||| presence 1 p.priorityAction ||| presence 2 p.nomAttenuation ||| presence 3 p.levelMonitor
        ||| presence 4 p.windowExponent ||| presence 5 p.gateThreshold ||| presence 6 p.releaseThreshold ||| presence 7 p.silenceCountSetting
      ∧ m₄ = presence 0 p.warnLead ||| presence 1 p.retryLimit ||| presence 2 p.silenceLimit ||| presence 3 p.autoCensus
      ∧ encodeSetFloor p = [0x50, 30, m₂, m₃, m₄, p.mode.getD 0, p.floorLimit.getD 0, p.chairReserve.getD 0, p.policy.getD 0,
        p.discipline.getD 0, p.confirm.getD 0, (p.confirmWindow.getD 0).extractLsb' 8 8, (p.confirmWindow.getD 0).extractLsb' 0 8,
        p.pressAsConfirm.getD 0, p.secondPressCancels.getD 0, p.priorityAction.getD 0, p.nomAttenuation.getD 0, p.levelMonitor.getD 0,
        p.windowExponent.getD 0, (p.gateThreshold.getD 0).extractLsb' 8 8, (p.gateThreshold.getD 0).extractLsb' 0 8,
        (p.releaseThreshold.getD 0).extractLsb' 8 8, (p.releaseThreshold.getD 0).extractLsb' 0 8, p.silenceCountSetting.getD 0,
        (p.warnLead.getD 0).extractLsb' 8 8, (p.warnLead.getD 0).extractLsb' 0 8, p.retryLimit.getD 0, p.silenceLimit.getD 0,
        p.autoCensus.getD 0, 0] := by
  refine ⟨_, _, _, rfl, rfl, rfl, ?_⟩
  simp [encodeSetFloor, record, optByte, optHalf, halfBytes]

theorem decodeSetFloor_encode (p : SetFloorParams) : decodeSetFloor (encodeSetFloor p) = p := by
  obtain ⟨m₂, m₃, m₄, mask₂, mask₃, mask₄, bytes⟩ := encodeSetFloor_bytes p
  generalize encodeSetFloor p = r at bytes ⊢
  obtain ⟨b₀, b₁, b₂, b₃, b₄, b₅, b₆, b₇⟩ := mask8_getLsbD (m := byteAt r 2) (by rw [bytes]; exact mask₂)
  obtain ⟨c₀, c₁, c₂, c₃, c₄, c₅, c₆, c₇⟩ := mask8_getLsbD (m := byteAt r 3) (by rw [bytes]; exact mask₃)
  obtain ⟨d₀, d₁, d₂, d₃⟩ := mask4_getLsbD (m := byteAt r 4) (by rw [bytes]; exact mask₄)
  subst bytes
  rw [decodeSetFloor, maskedByte_eq b₀ rfl, maskedByte_eq b₁ rfl, maskedByte_eq b₂ rfl, maskedByte_eq b₃ rfl, maskedByte_eq b₄ rfl,
    maskedByte_eq b₅ rfl, maskedHalf_eq b₆ rfl rfl, maskedByte_eq b₇ rfl, maskedByte_eq c₀ rfl, maskedByte_eq c₁ rfl, maskedByte_eq c₂ rfl,
    maskedByte_eq c₃ rfl, maskedByte_eq c₄ rfl, maskedHalf_eq c₅ rfl rfl, maskedHalf_eq c₆ rfl rfl, maskedByte_eq c₇ rfl,
    maskedHalf_eq d₀ rfl rfl, maskedByte_eq d₁ rfl, maskedByte_eq d₂ rfl, maskedByte_eq d₃ rfl]

/-- The 14 enables stand from byte 2 of their record. -/
theorem decodeEnables_getElem (r : List Byte) (i : Fin 14) : (decodeEnables r)[i] = byteAt r (i.val + 2) := by
  fin_cases i <;> rfl

theorem decodeEnables_record (kind : Byte) (enables : Vector Byte 14) : decodeEnables (record kind 16 enables.toList) = enables := by
  refine Vector.ext fun i width => (decodeEnables_getElem _ ⟨i, width⟩).trans ?_
  simp [byteAt, record, width]

/-! ### The round trip (R170, R193, R197) -/

/-- A well-formed record command reads back from its bytes, which state their own length. -/
theorem decodeRecord_encodeRecord {i : Instr} {bytes : List Byte} (wf : i.wellFormed = true) (laid : encodeRecord i = some bytes) :
    decodeRecord bytes = .command i ∧ (byteAt bytes 1).toNat = bytes.length := by
  cases i with
  | unknownRecord kind => exact Option.some.inj laid ▸ unknown_reads (Option.isNone_iff_eq_none.mp wf)
  | loadSeat p => exact Option.some.inj laid ▸ record_reads rfl rfl (congrArg Instr.loadSeat (decodeLoadSeat_encode p))
  | setClass p => exact Option.some.inj laid ▸ record_reads rfl rfl (congrArg Instr.setClass (decodeSetClass_encode p))
  | setZone p => exact Option.some.inj laid ▸ record_reads rfl rfl (congrArg Instr.setZone (decodeSetZone_encode p))
  | setFloor p => exact Option.some.inj laid ▸ record_reads rfl (by simp [optByte, optHalf, halfBytes]) (congrArg Instr.setFloor (decodeSetFloor_encode p))
  | setNotices e => exact Option.some.inj laid ▸ record_reads rfl (by simp) (congrArg Instr.setNotices (decodeEnables_record 0x41 e))
  | setReport e => exact Option.some.inj laid ▸ record_reads rfl (by simp) (congrArg Instr.setReport (decodeEnables_record 0x56 e))
  | readSeat code => exact Option.some.inj laid ▸ record_reads rfl rfl (congrArg Instr.readSeat (halfBytes_append code))
  | close code => exact Option.some.inj laid ▸ record_reads rfl rfl (congrArg Instr.close (halfBytes_append code))
  | insertRequest code index =>
    exact Option.some.inj laid ▸ record_reads rfl rfl (congrArg (Instr.insertRequest · index) (halfBytes_append code))
  | cancelRequest code => exact Option.some.inj laid ▸ record_reads rfl rfl (congrArg Instr.cancelRequest (halfBytes_append code))
  | grant code => exact Option.some.inj laid ▸ record_reads rfl rfl (congrArg Instr.grant (halfBytes_append code))
  | clearStatus mask => exact Option.some.inj laid ▸ record_reads rfl rfl (congrArg Instr.clearStatus (halfBytes_append mask))
  | readClass b | readZone b | census b | abortCensus b | holdTrunk b | releaseTrunk b | readTrunk b | forceList b | batch b =>
    exact Option.some.inj laid ▸ record_reads rfl rfl rfl
  | readList first count => exact Option.some.inj laid ▸ record_reads rfl rfl rfl
  | closeAll | readChannels | clearList | next | claimList | yieldList | readMix | readSettings | openSitting | closeSitting | readStatus
  | resetEngine | readIdent => exact Option.some.inj laid ▸ record_reads rfl rfl rfl
  | _ => nomatch laid

end Sys2Proof

namespace Sys2Proof.Proofs

open Sys2Proof.Machine

/-- Settles O60: what is read back names the command, so no other command is laid out in the same bytes. -/
theorem recordsReadBackAsWritten : Obligations.RecordsReadBackAsWritten := by
  unfold Obligations.RecordsReadBackAsWritten
  intro i bytes wf laid
  obtain ⟨reads, length⟩ := decodeRecord_encodeRecord wf laid
  refine ⟨reads, length, fun j other wfj laidj same => ?_⟩
  obtain ⟨readsj, -⟩ := decodeRecord_encodeRecord wfj laidj
  exact Waiting.command.inj ((same ▸ readsj).symm.trans reads)

end Sys2Proof.Proofs
end

section
/-! PROOF. What any command but the hardware resets and the end of the hold comes to (`State.acts`), and with it the start-up hold (O4) and the lock
of the seating while the sitting is open (O59). -/

namespace Sys2Proof.Machine

/-! ### What a command comes to, but for the hardware resets and the end of the hold -/

/-- `t` is `s`, or no start-up hold is in force in `s` and a path of moves or a record answered leads to `t`. -/
def State.acts (s t : State) : Prop := t = s ∨ (s.running = true ∧ (Moves true s t ∨ t.lastReply.isSome = true))

section
variable {s a : State}

/-- An event that happens only while the engine runs (R191). -/
theorem State.acts_ite {P : Prop} [Decidable P] (guarded : P → s.running = true) (moves : Moves true s a) : s.acts (if P then a else s) := by
  split
  · next h => exact .inr ⟨guarded h, .inl moves⟩
  · exact .inl rfl

theorem State.running_of_hallAboutUp {f : List Byte} (h : s.hallAboutUp f = true) : s.running = true := by
  simp only [State.hallAboutUp, Bool.and_eq_true] at h
  obtain ⟨⟨⟨running, -⟩, -⟩, -⟩ := h
  exact running

theorem State.running_of_hallAboutDown {link : HallState} (h : s.hallAboutDown link = true) : s.running = true := by
  simp only [State.hallAboutDown, Bool.and_eq_true] at h
  obtain ⟨⟨running, -⟩, -⟩ := h
  exact running

theorem State.running_of_trunkAboutUp {t : Fin 4} {f : List Byte} (h : s.trunkAboutUp t f = true) : s.running = true := by
  simp only [State.trunkAboutUp, Bool.and_eq_true] at h
  obtain ⟨⟨⟨running, -⟩, -⟩, -⟩ := h
  exact running

theorem State.running_of_trunkAboutDown {t : Fin 4} {link : LinkState} (h : s.trunkAboutDown t link = true) : s.running = true := by
  simp only [State.trunkAboutDown, Bool.and_eq_true] at h
  obtain ⟨⟨running, -⟩, -⟩ := h
  exact running

/-- A command awaits its acknowledgement only while the engine runs (R34, R191). -/
theorem State.running_of_awaiting {x : Seat} {cmd : Cmd} (h : s.awaiting x = some cmd) : s.running = true := by
  unfold State.awaiting at h
  split at h
  · split at h
    · next taken => exact taken.1
    · cases h
  · cases h

theorem State.running_of_openAttempt {t : Fin 4} {f : InFlight} (h : s.openAttempt t = some f) : s.running = true := by
  unfold State.openAttempt at h
  split at h
  · split at h
    · next taken => exact taken.1
    · cases h
  · cases h

theorem State.seatEvent_acts (s : State) (t : Fin 4) (position : Fin 128) (serial : Fin 16) (kind : EventKind) (arg : Byte) :
    s.acts (s.seatEvent t position serial kind arg) :=
  State.acts_ite And.left (s.takeEvent_moves t position serial (some kind) arg)

theorem State.takeAck_acts (s : State) (x : Seat) (answers : Cmd → Bool) (result : AckResult) (data : Byte) :
    s.acts (s.takeAck x answers result data) := by
  cases awaiting : s.awaiting x with
  | none => exact .inl (State.takeAck_of_none awaiting answers result data)
  | some cmd => exact .inr ⟨State.running_of_awaiting awaiting, .inl (s.takeAck_moves x answers result data)⟩

/-- The reply of a record answered is the one kept last (log entry 3). -/
theorem State.replied_lastReply (s : State) (r : ReplyRecord) (fromPacket : Bool) : (s.replied r fromPacket).lastReply = some r := by
  cases fromPacket <;> rfl

/-- A record whose turn it is leaves its reply; any other leaves the state as it is (R170). -/
theorem State.runRecord_acts (s : State) (i : Instr) (kind : Byte) (body : State → Answer) : s.acts (s.runRecord i kind body) := by
  unfold State.runRecord
  split
  · next turn =>
    obtain ⟨-, lastReply, -⟩ := Moves.frame (State.countBatch_moves ((body s).state.replied ⟨kind, (body s).status, (body s).fields⟩
      s.nextRecord.isSome) s.mge.batch.isSome s.lastOfPacket)
    refine .inr ⟨(Bool.and_eq_true_iff.mp turn).1, .inr ?_⟩
    dsimp only
    rw [lastReply, State.replied_lastReply]
    rfl
  · exact .inl rfl

theorem State.runReset_acts (s : State) : s.acts s.runReset := by
  unfold State.runReset
  split
  · next turn =>
    refine .inr ⟨(Bool.and_eq_true_iff.mp turn).1, .inr ?_⟩
    split <;> rfl
  · exact .inl rfl

end

/-- Every command but the hardware resets and the end of the hold leaves the state as it is, or acts while the engine runs: an event is a path of
moves, and a record leaves its reply. -/
theorem exec_acts {i : Instr} (notPower : i ≠ .powerOnReset) (notBrownout : i ≠ .brownoutReset) (notPin : i ≠ .pinReset)
    (notHoldEnd : i ≠ .startUpHoldEnd) (s : State) : ∃ t, exec i s = .next t ∧ s.acts t := by
  cases i with
  | powerOnReset => exact absurd rfl notPower
  | brownoutReset => exact absurd rfl notBrownout
  | pinReset => exact absurd rfl notPin
  | startUpHoldEnd => exact absurd rfl notHoldEnd
  | hallFrameValid f | hallFrameInvalid f => exact ⟨_, rfl, State.acts_ite id (s.receiveHall_moves f)⟩
  | hallFrameMissing => exact ⟨_, rfl, State.acts_ite id s.hallBad_moves⟩
  | hallLinkUp f => exact ⟨_, rfl, State.acts_ite State.running_of_hallAboutUp (s.hallValid_moves f)⟩
  | hallLinkLost | hallAlignFail => exact ⟨_, rfl, State.acts_ite State.running_of_hallAboutDown s.hallBad_moves⟩
  | hallFrameSend => exact ⟨_, rfl, State.acts_ite id s.sendHall_moves⟩
  | mixComputation => exact ⟨_, rfl, State.acts_ite id (s.mixComputation_moves.trans (State.frameTick_moves _))⟩
  | decisecondExpiry => exact ⟨_, rfl, State.acts_ite id s.decisecondExpiry_moves⟩
  | secondExpiry => exact ⟨_, rfl, State.acts_ite id s.secondExpiry_moves⟩
  | speakWarning c => exact ⟨_, rfl, State.acts_ite id (s.warnStep_moves c)⟩
  | speakExpiry c => exact ⟨_, rfl, State.acts_ite id ((s.expireStep_moves c).trans (State.settle_moves _))⟩
  | offerLapse x => exact ⟨_, rfl, State.acts_ite And.left ((s.lapse_moves x).trans (State.settle_moves _))⟩
  | silenceTimerExpiry => exact ⟨_, rfl, State.acts_ite And.left s.unattend_moves⟩
  | levelWindowComplete c x =>
    exact ⟨_, rfl, State.acts_ite And.left (((s.handSlot_moves c x).trans (State.finishWindow_moves _ c)).trans (State.settle_moves _))⟩
  | silenceRelease c => exact ⟨_, rfl, State.acts_ite And.left ((s.silenceStep_moves c).trans (State.settle_moves _))⟩
  | trunkFrameGood t f | trunkFrameMalformed t f => exact ⟨_, rfl, State.acts_ite id (s.receiveTrunk_moves t f)⟩
  | trunkFrameMissing t => exact ⟨_, rfl, State.acts_ite id ((s.trunkBad_moves t).trans (State.settle_moves _))⟩
  | trunkUp t f => exact ⟨_, rfl, State.acts_ite State.running_of_trunkAboutUp (s.trunkGood_moves t f)⟩
  | trunkTrainingFail t => exact ⟨_, rfl, State.acts_ite State.running_of_trunkAboutDown (s.trunkBad_moves t)⟩
  | trunkLinkLost t =>
    exact ⟨_, rfl, State.acts_ite State.running_of_trunkAboutDown ((s.trunkBad_moves t).trans (State.settle_moves _))⟩
  | trunkFrameSend t => exact ⟨_, rfl, State.acts_ite id ((s.sendTrunk_moves t).trans (State.settle_moves _))⟩
  | hello t p n a | micPress t p n a | confirm t p n a | priorityDown t p n a | priorityUp t p n a | chairNext t p n a | chairClear t p n a
  | takeList t p n a | giveList t p n a => exact ⟨_, rfl, s.seatEvent_acts t p n _ a⟩
  | openComplete x r | muteComplete x r | unmuteComplete x r | closeComplete x r | offerComplete x r | withdrawComplete x r
  | indicationComplete x r => exact ⟨_, rfl, s.takeAck_acts x _ r 0⟩
  | probeAnswered x r d => exact ⟨_, rfl, s.takeAck_acts x _ r d⟩
  | commandAttemptFailed t =>
    refine ⟨_, rfl, ?_⟩
    split
    · next f attempt =>
      exact .inr ⟨State.running_of_openAttempt attempt, .inl ((s.attemptFailed_moves t f).trans (State.settle_moves _))⟩
    · exact .inl rfl
  | unknownRecord kind =>
    refine ⟨_, rfl, ?_⟩
    split
    · exact s.runRecord_acts _ _ _
    · exact .inl rfl
  | resetEngine => exact ⟨_, rfl, s.runReset_acts⟩
  | _ => exact ⟨_, rfl, s.runRecord_acts _ _ _⟩

/-! ### The lock of an open sitting (R183) -/

/-- While the sitting is open, a change of the engine that is no hardware reset keeps the seating; a hardware reset leaves no reply. -/
theorem Change.sameSeating {s t : State} (h : Change s t) (sitting : s.mge.sittingOpen = true) (replied : t.lastReply.isSome = true) :
    t.stb.sameSeating s.stb := by
  cases h with
  | path moves => exact moves.sameSeating
  | reset cause holdMs => cases replied
  | holdEnd _ => exact s.stb.sameSeating_refl
  | seating stb locked _ moves => exact Stb.sameSeating_trans moves.sameSeating (locked sitting)
  | settings p moves => exact moves.sameSeating
  | opened closed _ => exact absurd (sitting.symm.trans closed) (by decide)
  | closed before after => exact Stb.sameSeating_trans after.sameSeating before.sameSeating
  | engine before => exact before.sameSeating

/-- While the sitting is open, no command but a hardware reset changes the seating. -/
theorem exec_sameSeating {i : Instr} {s t : State} (sitting : s.mge.sittingOpen = true) (notPower : i ≠ .powerOnReset)
    (notBrownout : i ≠ .brownoutReset) (notPin : i ≠ .pinReset) (run : exec i s = .next t) : t.stb.sameSeating s.stb := by
  by_cases holdEnd : i = .startUpHoldEnd
  · subst holdEnd
    obtain rfl : (if s.running then s else s.endHold) = t := Host.Outcome.next.inj run
    split <;> exact s.stb.sameSeating_refl
  obtain ⟨u, run', acts⟩ := exec_acts notPower notBrownout notPin holdEnd s
  obtain rfl : u = t := Host.Outcome.next.inj (run'.symm.trans run)
  rcases acts with rfl | ⟨-, moves | replied⟩
  · exact Stb.sameSeating_refl _
  · exact moves.sameSeating
  · obtain ⟨v, run'', change⟩ := exec_change i s
    obtain rfl : v = u := Host.Outcome.next.inj (run''.symm.trans run)
    exact change.sameSeating sitting replied

end Sys2Proof.Machine

namespace Sys2Proof.Proofs

open Sys2Proof.Machine

/-- Settles O59: a command is a path of moves, which keeps the seating, or leaves a reply, which tells its change from a hardware reset. -/
theorem sittingLocksTheSeating : Obligations.SittingLocksTheSeating := by
  unfold Obligations.SittingLocksTheSeating
  intro i s t sitting notPower notBrownout notPin run
  obtain ⟨seats, zones, classes⟩ := exec_sameSeating sitting notPower notBrownout notPin run
  exact ⟨fun x => seats (seatIndex x), zones, classes⟩

/-- Settles O4: a command that acts finds the engine running. -/
theorem startUpHoldStopsEveryOtherCommand : Obligations.StartUpHoldStopsEveryOtherCommand := by
  unfold Obligations.StartUpHoldStopsEveryOtherCommand
  intro i s held notPower notBrownout notPin notHoldEnd
  obtain ⟨t, run, acts⟩ := exec_acts notPower notBrownout notPin notHoldEnd s
  obtain rfl : t = s := acts.resolve_right fun ⟨running, _⟩ => held (State.running_iff.mp running)
  exact run

end Sys2Proof.Proofs
end

section
/-! PROOF. OPEN_SITTING and CLOSE_SITTING (O55), READ_IDENT and READ_SETTINGS (O45). -/

namespace Sys2Proof.Machine

section
variable {s u v : State}

/-! ### What CLOSE_SITTING leaves of the floor (R185) -/

/-- `u` differs from `s` on the floor in the channels, the open sequence, the list and the promotion trigger only. -/
def State.keepsControl (s u : State) : Prop := u.far = { s.far with
  channels := u.far.channels, openSeq := u.far.openSeq, list := u.far.list, promotionDeferred := u.far.promotionDeferred }

theorem State.keepsControl_refl (s : State) : s.keepsControl s := rfl

theorem State.keepsControl_trans (first : s.keepsControl u) (second : u.keepsControl v) : s.keepsControl v := by
  unfold State.keepsControl at first second ⊢
  rw [second, first]

theorem State.keepsControl_of_changesOnly {c : Fin 12} (only : s.changesOnly c u) : s.keepsControl u := by
  obtain ⟨-, -, far⟩ := only
  unfold State.keepsControl
  rw [far]

/-- A channel closed, or its offer ended, leaves the hold set and list control alone. -/
theorem State.closeEach_keepsControl (s : State) (removal : RemovalCause) (cause : CloseCause) (c : Fin 12) :
    s.keepsControl (s.closeEach removal cause c) := by
  have request : ((s.chan c).state = .offered → (s.chan c).seat = none) → s.keepsControl (s.closeRequest c cause) := fun notOffered =>
    State.keepsControl_of_changesOnly (State.closeRequest_changesOnly notOffered cause)
  unfold State.closeEach
  cases state : (s.chan c).state with
  | free => exact s.keepsControl_refl
  | opening | opened | held => exact request fun offered => nomatch state.symm.trans offered
  | closing => exact State.keepsControl_of_changesOnly (s.modChan_changesOnly c _)
  | offered =>
    cases seat : (s.chan c).seat with
    | none => exact request fun _ => seat
    | some x =>
      obtain ⟨-, far⟩ := s.endOffer_floor x removal cause true
      unfold State.keepsControl
      rw [far]

theorem State.closeChans_keepsControl (removal : RemovalCause) (cause : CloseCause) (cs : List (Fin 12)) (s : State) :
    s.keepsControl (cs.foldl (State.closeEach removal cause) s) := by
  induction cs generalizing s with
  | nil => exact s.keepsControl_refl
  | cons c cs ih => exact State.keepsControl_trans (s.closeEach_keepsControl removal cause c) (ih _)

/-- Removing the entries of all listed seats empties the list and changes nothing else on the floor. -/
theorem State.listRemoveAll_far (s : State) (cause : RemovalCause) :
    ((s.far.list.map Entry.seat).foldl (fun a x => a.listRemove x cause) s).far = { s.far with list := [] } := by
  have empties := eraseP_seats (P := fun _ => True) [] s.far.list (by simp)
  simp only [decide_true, List.filter_true, not_true, decide_false, List.filter_false, List.nil_append] at empties
  rw [State.listRemovesOver_far, empties]

theorem State.listRemovesOver_fmx (l : List Seat) (cause : RemovalCause) (s : State) :
    (l.foldl (fun a x => a.listRemove x cause) s).fmx = s.fmx := by
  induction l generalizing s with
  | nil => rfl
  | cons x l ih => rw [List.foldl_cons, ih, State.listRemove_fmx]

/-- The channels of the sitting are closed as CLOSE_ALL closes them, and the list is emptied (R185). -/
theorem State.endSitting_floor (s : State) :
    let closed := s.busyChans.foldl (State.closeEach .sitting .sitting) s
    s.endSitting.far = { closed.far with list := [] } ∧ s.endSitting.fmx = s.fmx :=
  ⟨State.listRemoveAll_far _ .sitting,
    (State.listRemovesOver_fmx _ .sitting _).trans (State.closeChans_shuts .sitting .sitting s.busyChans s).fmx⟩

/-! ### The answers of OPEN_SITTING and CLOSE_SITTING (R184, R185) -/

theorem openSittingBody_state (sitting : s.mge.sittingOpen = true) : openSittingBody s = Answer.refuse .state s := if_pos sitting

theorem openSittingBody_opens (closed : s.mge.sittingOpen = false) :
    openSittingBody s = ⟨s.zeroCounts.modMge fun m => { m with sittingOpen := true }, .ok, []⟩ := if_neg (ne_true_of_eq_false closed)

theorem closeSittingBody_state (closed : s.mge.sittingOpen = false) : closeSittingBody s = Answer.refuse .state s :=
  if_neg (ne_true_of_eq_false closed)

theorem closeSittingBody_closes (sitting : s.mge.sittingOpen = true) :
    closeSittingBody s = ⟨(s.endSitting.modMge fun m => { m with sittingOpen := false }).settle, .ok,
      [BitVec.ofNat 8 (allChans.countP fun c => (s.chan c).state ≠ .free), BitVec.ofNat 8 s.far.list.length]⟩ := by
  rw [List.countP_eq_length_filter]
  exact if_pos sitting

end

end Sys2Proof.Machine

namespace Sys2Proof.Proofs

open Sys2Proof.Machine

/-- Settles O55: CLOSE_SITTING closes the channels as CLOSE_ALL does (`State.closeAll_chans`), and then removes what is left of the list. -/
theorem sittingOpensAndCloses : Obligations.SittingOpensAndCloses := by
  unfold Obligations.SittingOpensAndCloses
  refine ⟨fun s takes => ⟨fun sitting => ?_, fun closed => ?_⟩, fun s takes => ⟨fun closed => ?_, fun sitting => ?_⟩⟩
  · exact congrArg _ (State.runRecord_refuse takes 0x52 (openSittingBody_state sitting))
  · exact congrArg _ (State.runRecord_answer takes 0x52 (openSittingBody_opens closed))
  · exact congrArg _ (State.runRecord_refuse takes 0x53 (closeSittingBody_state closed))
  · have chans := State.closeAll_chans .sitting .sitting s
    have shuts := State.closeChans_shuts .sitting .sitting s.busyChans s
    have control := State.closeChans_keepsControl .sitting .sitting s.busyChans s
    obtain ⟨far, fmx⟩ := s.endSitting_floor
    obtain ⟨-, -, -, -, -, -, classes, zones, settings, -⟩ := Moves.frame s.endSitting_moves
    generalize s.busyChans.foldl (State.closeEach .sitting .sitting) s = closed at chans shuts control far
    have same : ∀ c, s.endSitting.chan c = closed.chan c := fun c => by
      rw [State.chan, far]
      rfl
    refine ⟨s.endSitting.modMge fun m => { m with sittingOpen := false },
      congrArg _ (State.runRecord_answer takes 0x53 (closeSittingBody_closes sitting)), rfl, congrArg Far.list far, fun c => ?_, ?_, ?_, ?_,
      settings, classes, zones, fmx⟩
    · obtain ⟨speaks, closing, offered, -⟩ := chans c
      rw [State.modMge_chan, same]
      exact ⟨speaks, closing, offered, fun free => Channel.free_of_shutFrom (shuts.chans c) free⟩
    all_goals rw [State.modMge_far, far, control]

/-- Settles O45. -/
theorem identAndSettingsAreRead : Obligations.IdentAndSettingsAreRead := by
  unfold Obligations.IdentAndSettingsAreRead
  exact ⟨fun s takes => congrArg _ (State.runRecord_answer takes 0x58 rfl), fun s takes => congrArg _ (State.runRecord_answer takes 0x51 rfl)⟩

end Sys2Proof.Proofs
end

section
/-! PROOF. The queue of waiting commands (O3): no update of the engine touches it, and a hardware reset puts it back. -/

namespace Sys2Proof.Machine

theorem State.notify_pending (s : State) (n : Notice) : (s.notify n).pending = s.pending := by
  obtain ⟨-, -, -, -, -, pending, -⟩ := Moves.frame (s.notify_moves n)
  exact pending

/-- Neither an inner move nor one that touches the replies, the frames sent or HLI's queues reaches the queue of commands. -/
theorem Move.pending_eq {o : Bool} {s t : State} (h : Move o s t) : t.pending = s.pending := by
  cases h
  case notice n => exact s.notify_pending n
  all_goals rfl

theorem Moves.pending_eq {o : Bool} {s t : State} (h : Moves o s t) : t.pending = s.pending :=
  h.keeps (P := fun t => t.pending = s.pending) (fun move => move.pending_eq.trans) rfl

/-- The queue of waiting commands stands through every change of the engine, the resets included (log entry 27). -/
theorem Change.pending_eq {s t : State} (h : Change s t) : t.pending = s.pending := by
  cases h with
  | path moves => exact moves.pending_eq
  | reset cause holdMs => rfl
  | holdEnd _ => rfl
  | seating stb _ _ moves => exact moves.pending_eq
  | settings p moves => exact moves.pending_eq
  | opened _ moves => exact moves.pending_eq
  | closed before after => exact after.pending_eq.trans before.pending_eq
  | engine before => exact before.pending_eq

end Sys2Proof.Machine

namespace Sys2Proof.Proofs

open Sys2Proof.Machine

/-- Settles O3: every command answers a next state, reached by a `Change`, and every `Change` keeps the queue. -/
theorem everyCommandAnswersAndKeepsQueue : Obligations.EveryCommandAnswersAndKeepsQueue := by
  unfold Obligations.EveryCommandAnswersAndKeepsQueue
  intro i s
  obtain ⟨t, run, change⟩ := exec_change i s
  exact ⟨t, run, change.pending_eq⟩

end Sys2Proof.Proofs
end
